-- ==== Sys2Proof/Word.lean ====
section
/-! DEFINITION. The word types of the NP-4 (00_scope.md R5, R6) and their plainest arithmetic. -/
namespace Sys2Proof

/-- A byte (R5). -/
abbrev Byte := BitVec 8
/-- A 64-bit word (R5). -/
abbrev Word := BitVec 64
/-- One lane of a vector register (Table 2.6). -/
abbrev Lane := BitVec 32

/-- Bits [hi:lo] of a number, both ends included (R6). -/
def bits (x hi lo : Nat) : Nat := (x >>> lo) % 2 ^ (hi + 1 - lo)

/-- Bit i of a number (R6). -/
def bit (x i : Nat) : Bool := x.testBit i

/-- A w-bit two's complement number read as a signed value. -/
def signed (w x : Nat) : Int :=
  if x % 2 ^ w < 2 ^ (w - 1) then (x % 2 ^ w : Nat) else (x % 2 ^ w : Nat) - (2 ^ w : Nat)

/-- The low w bits of an integer in two's complement. -/
def unsignedOf (w : Nat) (x : Int) : Nat := (x % (2 ^ w : Nat)).toNat

/-- ceil(a / b) on natural numbers. -/
def ceilDiv (a b : Nat) : Nat := (a + b - 1) / b

/-- x rounded up to a multiple of b. -/
def roundUp (x b : Nat) : Nat := ceilDiv x b * b

/-- Number of bits of a natural number: 0 for 0, else floor(log2 x) + 1. -/
def bitLen (x : Nat) : Nat := if x = 0 then 0 else x.log2 + 1

/-- The n bytes of a number, lowest first (R6: little-endian). -/
def bytesOf (n x : Nat) : List Byte := (List.range n).map fun i => BitVec.ofNat 8 (x >>> (8 * i))

/-- The number that bytes spell, lowest first (R6). -/
def ofBytes : List Byte → Nat
  | [] => 0
  | b :: bs => b.toNat + 256 * ofBytes bs

/-- The number that bytes spell, highest first (R6: keys and signatures). -/
def ofBytesBE (bs : List Byte) : Nat := ofBytes bs.reverse

/-- x, but no more than the largest value of w bits: the saturating counters of the register map. -/
def satN (w x : Nat) : Nat := min x (2 ^ w - 1)

end Sys2Proof
end

