-- ==== Sys2Proof/Syntax.lean ====
section
/-! DEFINITION. The commands of the NP-4 block and the words and messages they carry.
An instruction's operands are the fields of its layout tables in 12_instruction_reference.md; the field
`rsv` gathers the bits that the layout says must be 0, and `ext` whether an extension word follows. -/
namespace Sys2Proof

/-- Table 12.2: the scalar layout, also of the synchronisation (Table 12.5) and collective instructions (R323). -/
structure ScalarWord where
  ext : Bool := false
  rsv : BitVec 13 := 0
  i : Bool := false
  rd : BitVec 6 := 0
  ra : BitVec 6 := 0
  rb : BitVec 6 := 0
  imm : BitVec 20 := 0
deriving DecidableEq, Repr

/-- Table 12.6: MMA and CMMA. -/
structure MmaWord where
  ext : Bool := false
  afmt : BitVec 3 := 0
  bfmt : BitVec 3 := 0
  rd : BitVec 6 := 0
  ra : BitVec 6 := 0
  rb : BitVec 6 := 0
  rc : BitVec 6 := 0
  eng : BitVec 2 := 0
  form : BitVec 2 := 0
  rsv : BitVec 4 := 0
  glen : BitVec 9 := 0
  acc : Bool := false
  split : BitVec 2 := 0
  gather : Bool := false
  sat : Bool := true
deriving DecidableEq, Repr

/-- Table 12.7: MMF.EXP and MMF.ROW. -/
structure MmfWord where
  ext : Bool := true
  afmt : BitVec 3 := 0
  bfmt : BitVec 3 := 0
  rd : BitVec 6 := 0
  ra : BitVec 6 := 0
  rb : BitVec 6 := 0
  rc : BitVec 6 := 0
  eng : BitVec 2 := 0
  rsv : BitVec 17 := 0
  kind : Bool := false
  ref : Bool := false
  init : Bool := false
  form : BitVec 2 := 0
  dt : BitVec 5 := 0
  darea : BitVec 6 := 0
  refBuf : BitVec 6 := 0
  rsvExt : BitVec 45 := 0
deriving DecidableEq, Repr

/-- Table 12.8: the vector arithmetic layout. -/
structure VecWord where
  ext : Bool := false
  type : BitVec 2 := 0
  cc : BitVec 4 := 0
  rd : BitVec 6 := 0
  ra : BitVec 6 := 0
  rb : BitVec 6 := 0
  rc : BitVec 6 := 0
  rsv : BitVec 20 := 0
  rnd : BitVec 2 := 0
  srb : BitVec 4 := 0
  salt : BitVec 12 := 0
  rsvExt : BitVec 48 := 0
deriving DecidableEq, Repr

/-- Table 12.11: CVT. -/
structure CvtWord where
  ext : Bool := false
  src : BitVec 3 := 0
  dst : BitVec 3 := 0
  rd : BitVec 6 := 0
  ra : BitVec 6 := 0
  rb : BitVec 6 := 0
  rc : BitVec 6 := 0
  rsv : BitVec 19 := 0
  sat : Bool := true
  rnd : BitVec 2 := 0
  srb : BitVec 4 := 0
  salt : BitVec 12 := 0
  rsvExt : BitVec 48 := 0
deriving DecidableEq, Repr

/-- R317: VLD and VST. -/
structure VMemWord where
  ext : Bool := false
  fmt : BitVec 4 := 0
  rsv : BitVec 4 := 0
  rd : BitVec 6 := 0
  ra : BitVec 6 := 0
  rb : BitVec 6 := 0
  rc : BitVec 6 := 0
  imm : BitVec 20 := 0
  srb : BitVec 4 := 0
  salt : BitVec 12 := 0
  rsvExt : BitVec 48 := 0
deriving DecidableEq, Repr

/-- R319: CHAIN.LD. -/
structure ChainLdWord where
  ext : Bool := false
  rd : BitVec 6 := 0
  ra : BitVec 6 := 0
  n : BitVec 7 := 0
  rsv : BitVec 33 := 0
deriving DecidableEq, Repr

/-- Table 12.13: EPI. -/
structure EpiWord where
  ext : Bool := true
  slot : BitVec 3 := 7
  arrange : BitVec 2 := 0
  sat : Bool := true
  statout : BitVec 6 := 0
  darea : BitVec 6 := 0
  sig : BitVec 6 := 0
  out : BitVec 6 := 0
  rsv : BitVec 2 := 0
  dcol : BitVec 14 := 0
  qgran : BitVec 2 := 0
  qcols : BitVec 2 := 0
  rnd : BitVec 2 := 0
  srb : BitVec 4 := 0
  salt : BitVec 12 := 0
  qscale : BitVec 5 := 0
  atile : BitVec 3 := 0
  atile2 : BitVec 4 := 8
  defer : BitVec 2 := 0
  twopass : BitVec 2 := 0
  npart : BitVec 12 := 0
  send : BitVec 2 := 0
  layout : BitVec 2 := 0
  eng : BitVec 2 := 0
  dcols : BitVec 4 := 0
  rsvExt : BitVec 10 := 0
deriving DecidableEq, Repr

/-- Table 12.14: KVA. -/
structure KvaWord where
  ext : Bool := false
  slot : BitVec 3 := 7
  arrange : BitVec 2 := 0
  rsv : BitVec 32 := 0
  ra : BitVec 6 := 0
  eng : BitVec 2 := 0
  layout : BitVec 2 := 0
  atile : BitVec 3 := 0
  rnd : BitVec 2 := 0
  srb : BitVec 4 := 0
  salt : BitVec 12 := 0
  rsvExt : BitVec 48 := 0
deriving DecidableEq, Repr

/-- Table 12.15: ATTN, ATTN.W and ATTN.MRG. -/
structure AttnWord where
  ext : Bool := true
  rope : BitVec 2 := 0
  form : BitVec 2 := 0
  shape : BitVec 2 := 0
  out : BitVec 6 := 0
  q : BitVec 6 := 0
  acb : BitVec 6 := 0
  walk : BitVec 6 := 0
  rsv : BitVec 2 := 0
  stat : BitVec 6 := 0
  marea : BitVec 6 := 0
  sig : BitVec 6 := 0
  rnd : BitVec 2 := 0
  srb : BitVec 4 := 0
  salt : BitVec 12 := 0
  bias : Bool := false
  send : BitVec 2 := 0
  npart : BitVec 12 := 0
  rsvExt : BitVec 33 := 0
deriving DecidableEq, Repr

/-- Table 12.16a: the move-unit layout. -/
structure MoveWord where
  ext : Bool := false
  rsv : BitVec 10 := 0
  aop : BitVec 2 := 0
  rd : BitVec 6 := 0
  ra : BitVec 6 := 0
  rb : BitVec 6 := 0
  rc : BitVec 6 := 0
  imm : BitVec 16 := 0
deriving DecidableEq, Repr

/-- Causes of an engine fault that is not the pass time limit (Table 4.7, LAST_CAUSE 1 to 3). -/
inductive EngineCause where
  | residue | stationaryParity | accumulatorParity
deriving DecidableEq, Repr

/-- Table 10.4: a packet of the hinge links, also the form in which the in-package fabric carries a request.
`addr` is ADDR, or the tag of Table 11.7 in a REDUCE_WRITE; `data` holds the LEN data units. -/
structure Packet where
  dest : Nat := 0
  src : Nat := 0
  op : Nat := 0
  ward : Nat := 0
  dir : Nat := 0
  pseq : Nat := 0
  len : Nat := 0
  pz : Bool := false
  addr : Nat := 0
  data : List Byte := []
deriving DecidableEq, Repr

/-- Tables 10.2 and 10.3: a flit as its sender put it on the lanes, with the header fields, the CRC-64 and the 236 payload
bytes; and what the link did to it: the 16-bit symbols that arrived wrong (0 to 127, in the order of R259), each with its
flipped bits. -/
structure Flit where
  typ : Nat := 0
  vc : Nat := 0
  seq : Nat := 0
  ack : Nat := 0
  crvc : Nat := 0
  crn : Nat := 0
  crc : Word := 0
  errors : List (Nat × BitVec 16) := []
  payload : List Byte := []
deriving DecidableEq, Repr

/-- Table 10.3: the port at which a control flit arrives, and what its header carries besides its message: the highest SEQ
received in order, and the credits returned. -/
structure CtlFlit where
  port : Nat := 0
  ack : Nat := 1023
  crvc : Nat := 0
  crn : Nat := 0
deriving DecidableEq, Repr

/-- R271: what a time-VC flit carries: the sender's device time at transmission, the time at which it received the
last flit of the exchange, its root and its hops. -/
structure TimeFlit where
  crcOk : Bool := true
  sentAt : Nat := 0
  prevRx : Nat := 0
  root : Nat := 0
  hops : Nat := 0
deriving DecidableEq, Repr

/-- R326: how an inbound request stands to the options of Table 13.1: inside them; carried by a frame outside them, at an
Ethernet port; or of an operation outside them. -/
inductive Fit where
  | inside
  | frame (port : Nat)
  | operation
deriving DecidableEq, Repr

/-- The queue pair that an inbound request names, and whether it is one that the port supports. -/
structure InFrame where
  qpn : Nat := 0
  fit : Fit := .inside
deriving DecidableEq, Repr

/-- R266, R433: an announcement that a port of a ring became unusable or usable again. -/
structure Announcement where
  node : Nat := 0
  port : Nat := 0
  usable : Bool := false
deriving DecidableEq, Repr

/-- A disturbance that the environment brought to a stored word: the word's local byte address and the
flipped bits (bits [63:0] data, [64] P, [76:65] address hash, [91:77] check bits; R234). In an SRAM word the
number of flipped bits counts (R229). `onDie` tells that the stack's own ECC reported a correction there (R232). -/
structure Upset where
  addr : Nat := 0
  mask : BitVec 92 := 0
  onDie : Bool := false
deriving DecidableEq, Repr

/-- R21: the requesters of the CSR bus. -/
inductive Requester where
  | i3c | host | signed
deriving DecidableEq, Repr

/-- R430, R363, R366, R367: what self-test finds and derives. `volts` holds each cluster's voltage points in mV, `dyn`
its full-duty dynamic power in mW by frequency code, `leak` the leakage in mW of the 24 clusters and of the other logic
of IO0, IO1 and C0 to C3, by degree C and then by frequency code; `weights` each die's calibrated weights. -/
structure SelfTest where
  failedCores : List Nat := []
  failedClusters : List Nat := []
  failedSlots : List Nat := []
  volts : List (List Nat) := []
  dyn : List (List Nat) := []
  leak : List (List (List Nat)) := []
  weights : List (List Nat) := []
  calOk : Bool := true
deriving DecidableEq, Repr

/-- R432, R433: how the training of one hinge port stands when step 8 ends. -/
inductive HingeTrain where
  | noSignal | failed | done (node port : Nat)
deriving DecidableEq, Repr

/-- The commands of the block: one constructor for each row of spec/opcode_table.json, in its order.
A core is named by its number i (R11), a cluster by g, a C-die or stack by its number, a hinge port by the
PEER_PORT encoding, an Ethernet port by the UNIT encoding of Table 16.4, a pseudo-channel by
stack x 32 + p (Table 16.4). -/
inductive Instr where
  /-- NOP (R312). Sequencer instruction that does nothing. -/
  | nop (c : Nat) (w : ScalarWord)
  /-- END (R35). Ends the tile body and releases all of the tile's outputs together, with the status word last; it faults if a deferred area is still open. -/
  | endTile (c : Nat) (w : ScalarWord)
  /-- ADD (R312). Scalar 64-bit wrapping addition of RA and B into RD. -/
  | add (c : Nat) (w : ScalarWord)
  /-- SUB (R312). Scalar 64-bit wrapping subtraction of B from RA into RD. -/
  | sub (c : Nat) (w : ScalarWord)
  /-- AND (R312). Scalar bitwise AND of RA and B into RD. -/
  | and (c : Nat) (w : ScalarWord)
  /-- OR (R312). Scalar bitwise OR of RA and B into RD. -/
  | or (c : Nat) (w : ScalarWord)
  /-- XOR (R312). Scalar bitwise XOR of RA and B into RD. -/
  | xor (c : Nat) (w : ScalarWord)
  /-- SHL (R312). Shifts RA left by B[5:0] into RD. -/
  | shl (c : Nat) (w : ScalarWord)
  /-- SHR (R312). Logical right shift of RA by B[5:0] into RD. -/
  | shr (c : Nat) (w : ScalarWord)
  /-- SRA (R312). Arithmetic right shift of RA by B[5:0] into RD. -/
  | sra (c : Nat) (w : ScalarWord)
  /-- MUL (R312). Low 64 bits of RA times B into RD. -/
  | mul (c : Nat) (w : ScalarWord)
  /-- MINU (R312). Unsigned minimum of RA and B into RD. -/
  | minu (c : Nat) (w : ScalarWord)
  /-- MAXU (R312). Unsigned maximum of RA and B into RD. -/
  | maxu (c : Nat) (w : ScalarWord)
  /-- LI (R312). Loads the sign-extended immediate into RD. -/
  | li (c : Nat) (w : ScalarWord)
  /-- LIS (R312). Sets RD to RA shifted left by 20, ORed with the zero-extended immediate. -/
  | lis (c : Nat) (w : ScalarWord)
  /-- LD (R312). Loads 8 bytes of core memory into RD; faults if the address is misaligned or outside the core's memory. -/
  | ld (c : Nat) (w : ScalarWord)
  /-- ST (R312). Stores RB as 8 bytes into core memory; faults if the address is misaligned or outside the core's memory. -/
  | st (c : Nat) (w : ScalarWord)
  /-- TLD (R312). Loads a 32-byte tensor descriptor from core memory into a t register. -/
  | tld (c : Nat) (w : ScalarWord)
  /-- TBASE (R308). Rewrites the BASE of a t register; instructions already issued keep their copy. -/
  | tbase (c : Nat) (w : ScalarWord)
  /-- BEQ (R312). Branches if RA equals RB. -/
  | beq (c : Nat) (w : ScalarWord)
  /-- BNE (R312). Branches if RA differs from RB. -/
  | bne (c : Nat) (w : ScalarWord)
  /-- BLT (R312). Branches if RA is less than RB, compared as signed values. -/
  | blt (c : Nat) (w : ScalarWord)
  /-- BGE (R312). Branches if RA is greater than or equal to RB, compared as signed values. -/
  | bge (c : Nat) (w : ScalarWord)
  /-- BLTU (R312). Branches if RA is less than RB, compared as unsigned values. -/
  | bltu (c : Nat) (w : ScalarWord)
  /-- BGEU (R312). Branches if RA is greater than or equal to RB, compared as unsigned values. -/
  | bgeu (c : Nat) (w : ScalarWord)
  /-- JMP (R312). Unconditional PC-relative jump. -/
  | jmp (c : Nat) (w : ScalarWord)
  /-- MMA (R99). Runs the passes of a matrix product into accumulator tiles, in square or wide-shallow form. -/
  | mma (c : Nat) (w : MmaWord)
  /-- CMMA (R109). Runs four passes of a complex product into real and imaginary accumulator sets. -/
  | cmma (c : Nat) (w : MmaWord)
  /-- MMF_EXP (R141). Fused product with anchored exponential and a second product over one inner block, updating the row state. -/
  | mmfExp (c : Nat) (w : MmfWord)
  /-- MMF_ROW (R142). Fused product with a row statistic and a second product over one inner block. -/
  | mmfRow (c : Nat) (w : MmfWord)
  /-- STATIONARY_COPY (R106). Copies a staged block into the stationary registers of its tag, retried each cycle until rows of the pass before last have left. -/
  | stationaryCopy (c e : Nat)
  /-- PASS_TIME_LIMIT (R114). A pass that is not complete within 2,048 unpaused CCLK of its first streamed row is an engine fault. -/
  | passTimeLimit (c e : Nat)
  /-- ENGINE_FAULT (R114). A residue or parity mismatch aborts the tile and replays it once on the same core. -/
  | engineFault (c e : Nat) (cause : EngineCause)
  /-- VADD (R316). Lane-wise addition, rounded once. -/
  | vadd (c : Nat) (w : VecWord)
  /-- VSUB (R316). Lane-wise subtraction, rounded once. -/
  | vsub (c : Nat) (w : VecWord)
  /-- VMUL (R316). Lane-wise multiplication, rounded once. -/
  | vmul (c : Nat) (w : VecWord)
  /-- VFMA (R316). Lane-wise fused multiply-add, rounded once. -/
  | vfma (c : Nat) (w : VecWord)
  /-- VMIN (R83). Lane-wise IEEE minimum. -/
  | vmin (c : Nat) (w : VecWord)
  /-- VMAX (R83). Lane-wise IEEE maximum. -/
  | vmax (c : Nat) (w : VecWord)
  /-- VMINNUM (R83). Lane-wise IEEE minimumNumber. -/
  | vminnum (c : Nat) (w : VecWord)
  /-- VMAXNUM (R83). Lane-wise IEEE maximumNumber. -/
  | vmaxnum (c : Nat) (w : VecWord)
  /-- VCMP (R82). Lane-wise comparison producing an all-ones or zero mask. -/
  | vcmp (c : Nat) (w : VecWord)
  /-- VSEL (R316). Lane-wise select between RB and RC by the mask in RA. -/
  | vsel (c : Nat) (w : VecWord)
  /-- VEXP2 (R316). Lane-wise 2^x, correctly rounded. -/
  | vexp2 (c : Nat) (w : VecWord)
  /-- VLOG2 (R316). Lane-wise log2, correctly rounded. -/
  | vlog2 (c : Nat) (w : VecWord)
  /-- VRCP (R316). Lane-wise reciprocal, correctly rounded. -/
  | vrcp (c : Nat) (w : VecWord)
  /-- VSQRT (R316). Lane-wise square root, correctly rounded. -/
  | vsqrt (c : Nat) (w : VecWord)
  /-- VRSQRT (R316). Lane-wise reciprocal square root, correctly rounded. -/
  | vrsqrt (c : Nat) (w : VecWord)
  /-- VDIV (R316). Lane-wise division, correctly rounded. -/
  | vdiv (c : Nat) (w : VecWord)
  /-- CVT (R87). Converts each lane between storage formats under Table 3.7. -/
  | cvt (c : Nat) (w : CvtWord)
  /-- VLD (R317). Loads 64 consecutive elements from core memory into the lanes without conversion. -/
  | vld (c : Nat) (w : VMemWord)
  /-- VST (R317). Stores the low bits of each lane as 64 consecutive elements. -/
  | vst (c : Nat) (w : VMemWord)
  /-- VBCAST (R316). Broadcasts bits [31:0] of a scalar register to every lane. -/
  | vbcast (c : Nat) (w : VecWord)
  /-- CHAIN_LD (R122). Loads n chain words into a chain slot after checking them. -/
  | chainLd (c : Nat) (w : ChainLdWord)
  /-- EPI (R123). Runs a chain program over an accumulator region, rounds each result once and writes it through OUT, with quantisation, deferral or sending as selected. -/
  | epi (c : Nat) (w : EpiWord)
  /-- KVA (R181). Runs a chain program over a region and appends the rounded rows to KV pages, sealing, spilling or faulting as required. -/
  | kva (c : Nat) (w : KvaWord)
  /-- MOV (R246). Checks the whole range, then copies one contiguous range in 64-byte units. -/
  | mov (c : Nat) (w : MoveWord)
  /-- MOV_SIG (R249). Moves a range, then increments a signal word with release ordering. -/
  | movSig (c : Nat) (w : MoveWord)
  /-- MOV_S (R246). Strided two-dimensional move described by a move descriptor. -/
  | movS (c : Nat) (w : MoveWord)
  /-- MOV_G (R246). Gather or scatter of rows through an index list. -/
  | movG (c : Nat) (w : MoveWord)
  /-- ATOM_ADD (R249). Issues an unsigned 64-bit atomic add to a word. -/
  | atomAdd (c : Nat) (w : MoveWord)
  /-- ATOM_FETCH_ADD (R249). Issues an atomic add that returns the old value. -/
  | atomFetchAdd (c : Nat) (w : MoveWord)
  /-- ATOM_SWAP (R249). Issues an atomic swap that returns the old value. -/
  | atomSwap (c : Nat) (w : MoveWord)
  /-- ATOM_CAS (R249). Issues an atomic compare-and-swap that returns the old value. -/
  | atomCas (c : Nat) (w : MoveWord)
  /-- SCATTER (R185). Places the spilled pages of a scatter buffer in ascending order, waiting for frames, references, export and earlier buffers as needed. -/
  | scatter (c : Nat) (w : MoveWord)
  /-- PAGE_TRUNC (R187). Removes every slot at or above position p from every stream of a table, freeing or unsealing pages. -/
  | pageTrunc (c : Nat) (w : MoveWord)
  /-- ATTN (R151). Fused attention for one query group over the walked KV pages, with the anchored row state and a single final division. -/
  | attn (c : Nat) (w : AttnWord)
  /-- ATTN_W (R165). Fused attention in the wide-shallow form. -/
  | attnW (c : Nat) (w : AttnWord)
  /-- ATTN_MRG (R164). Merges NPART partial attention sets in ascending order and writes OUT and STAT. -/
  | attnMrg (c : Nat) (w : AttnWord)
  /-- WALK_VALIDATION (R191). The control core validates every page of an ATTN key range and takes read references, or faults with PAGE_ABSENT. -/
  | walkValidation (c : Nat) (w : AttnWord)
  /-- COL_RS (R323). Opens or joins a REDUCE_SCATTER operation and declares one contribution copy delivered. -/
  | colRs (c : Nat) (w : ScalarWord)
  /-- COL_AR (R323). Opens or joins an ALLREDUCE operation and declares one contribution copy delivered. -/
  | colAr (c : Nat) (w : ScalarWord)
  /-- COL_AG (R323). Opens or joins an ALLGATHER operation and declares its source delivered. -/
  | colAg (c : Nat) (w : ScalarWord)
  /-- COL_A2A (R323). Opens or joins an ALLTOALL operation and declares its source rows delivered. -/
  | colA2a (c : Nat) (w : ScalarWord)
  /-- FENCE (R50). Stalls the sequencer until every earlier move and remote operation of the core has completed. -/
  | fence (c : Nat) (w : ScalarWord)
  /-- WAIT (R52). Stalls until the signal word reaches the value in a register, with acquire semantics. -/
  | wait (c : Nat) (w : ScalarWord)
  /-- WAIT_I (R52). Stalls until the signal word reaches an immediate value. -/
  | waitI (c : Nat) (w : ScalarWord)
  /-- SIGNAL (R313). Fences, then increments a signal word with release ordering. -/
  | signal (c : Nat) (w : ScalarWord)
  /-- WAIT_WAKE (R52). An increment landing at an on-chip signal word wakes the WAIT once the condition holds. -/
  | waitWake (c : Nat)
  /-- WAIT_POLL (R52). A WAIT on an HBM word re-reads the word every 256 CCLK. -/
  | waitPoll (c : Nat)
  /-- WAIT_TIMEOUT (R52). When WAIT_LIMIT runs out, the word is read once more and the task faults with WAIT_TIMEOUT unless the condition holds. -/
  | waitTimeout (c : Nat)
  /-- TASK_DISPATCH (R33). The scheduler reads and checks a task descriptor and dispatches the task, or faults it with DESCRIPTOR or CONTRACT. -/
  | taskDispatch (r t : Nat)
  /-- START_SIGNAL_MET (R37). A task held by its start signal is dispatched once the word reaches START_VALUE. -/
  | startSignalMet (r t : Nat)
  /-- TILE_PULL (R39). A core pulls the next tile in ascending index, loads its registers and writes the tile coordinates. -/
  | tilePull (c r t : Nat)
  /-- SPLIT_K_COMBINE (R36). Partials of an output tile are combined in ascending kp order and rounded once after the last. -/
  | splitKCombine (r t q : Nat)
  /-- TASK_COMPLETE (R54). Once all tiles are released and all writes acknowledged, the done signal word is incremented. -/
  | taskComplete (r t : Nat)
  /-- REQUEST_COMPLETE (R54). After all tasks, and any last layer marker, the request is ready for its completion entry. -/
  | requestComplete (r : Nat)
  /-- COMPLETION_ENTRY_WRITE (R332). Writes a 32-byte completion entry by RDMA WRITE once the completion ring has room. -/
  | completionEntryWrite (qpn : Nat)
  /-- PLAN_POINT (R40). At the plan point each scheduler assigns its clusters to wards for the next step. -/
  | planPoint (die : Nat)
  /-- CLAIM (R40). A home scheduler's cluster claim arrives over the ring and counts at the next plan point. -/
  | claim (die ward n : Nat)
  /-- PREEMPTION_REQUEST (R41). At the later of the plan point and the boundary minus the handover lead, pre-emption of a cluster that changes ward begins. -/
  | preemptionRequest (g : Nat)
  /-- CORE_STOPPED (R55). After passes, chain programs and moves drain, the core stops and writes its save image. -/
  | coreStopped (c : Nat)
  /-- SAVE_IMAGE_WRITTEN (R56). The core's save image is complete in the ward's save area and clearing may start. -/
  | saveImageWritten (c : Nat)
  /-- CLUSTER_CLEARING (R345). Writes zero into every memory word of the cluster and clears all its state before the incoming ward runs. -/
  | clusterClearing (g : Nat)
  /-- TASK_RESUME (R56). Restores a save image on any core the ward holds and continues at the next pass. -/
  | taskResume (c img : Nat)
  /-- STEP_BOUNDARY (R384). The step latch's count reaches the step length and declares a boundary, pulsing STEP_OUT. -/
  | stepBoundary
  /-- STEP_SYNC_EDGE (R385). A sampled STEP_SYNC rising edge pulls, pushes or is counted as coincident or outside. -/
  | stepSyncEdge
  /-- STEP_BOUNDARY_SEEN (R22). A cluster sees the distributed boundary and acts on assignment, ward fractions and energy snapshots. -/
  | stepBoundarySeen (g : Nat)
  /-- READ (R250). A remote READ request arrives at its target, is checked and answered with data. -/
  | read (p : Packet) (upsets : List Upset)
  /-- WRITE (R247). A remote WRITE request arrives and its 64-byte units land whole. -/
  | write (p : Packet) (upsets : List Upset)
  /-- WRITE_SIGNAL (R51). A remote write whose signal word is incremented once the data is visible. -/
  | writeSignal (p : Packet)
  /-- ATOMIC (R53). An ATOMIC request is performed at the word's home, one at a time in arrival order. -/
  | atomic (p : Packet)
  /-- READ_DATA (R262). A read response returns data, with poison marked by PZ. -/
  | readData (p : Packet)
  /-- ACK (R17). An acknowledgement completes a WRITE, WRITE_SIGNAL or REDUCE_WRITE at the issuer. -/
  | ack (p : Packet)
  /-- ATOMIC_DATA (R249). An atomic response returns the old value to the issuer. -/
  | atomicData (p : Packet)
  /-- NAK (R250). A target's NAK faults the issuing operation with the carried code. -/
  | nak (p : Packet)
  /-- DIE_LINK_CRC_RETRY (R16). A die-to-die transfer that fails its CRC is retried and counted. -/
  | dieLinkCrcRetry (link : Nat)
  /-- DIE_LINK_DOWN (R396). A die-to-die link goes down and retrains with its traffic held. -/
  | dieLinkDown (link : Nat)
  /-- DIE_LINK_FAILED (R396). A failed die-link retrain halts every cluster, sets FATAL and stops the device. -/
  | dieLinkFailed (link : Nat)
  /-- DATA_FLIT (R267). A received data flit is FEC-corrected, CRC-checked, accepted in SEQ order, and its credits and acknowledgement taken. -/
  | dataFlit (port : Nat) (f : Flit)
  /-- RETRY_CONTROL_FLIT (R267). On a retry flit the sender re-sends from the named SEQ out of its retry buffer. -/
  | retryControlFlit (f : CtlFlit) (seq : Nat)
  /-- RETIRE_CONTROL_FLIT (R268). A peer's retire flit makes this port retire with CAUSE 3 and re-send its retry buffer on the new route. -/
  | retireControlFlit (f : CtlFlit)
  /-- LEAVE_CONTROL_FLIT (R437). A peer's leave flit puts the port into training and announces it unusable, without counting towards retirement. -/
  | leaveControlFlit (f : CtlFlit)
  /-- HINGE_LINK_DOWN (R267). Sixteen failed retries of one SEQ, or loss of lane lock, takes the link down and both ends retrain. -/
  | hingeLinkDown (port : Nat)
  /-- HINGE_RETRAIN_DONE (R267). A hinge retrain completes and held traffic resumes. -/
  | hingeRetrainDone (port : Nat)
  /-- HINGE_RETRAIN_TIMEOUT (R268). A retrain not complete within 200 ms retires the port. -/
  | hingeRetrainTimeout (port : Nat)
  /-- HINGE_ERROR_WINDOW_END (R268). At each one-second window end, lane and retry counts are tested and ten bad windows in a row retire the port. -/
  | hingeErrorWindowEnd (port : Nat)
  /-- PORT_ANNOUNCEMENT (R266). An announcement on the time VC of a retired or newly up port updates the ring's link state and is passed on. -/
  | portAnnouncement (port : Nat) (a : Announcement)
  /-- ROUTE_CHANGE_RELEASE (R266). Packets held for a changed route are released once the old route's packets have been acknowledged or re-sent. -/
  | routeChangeRelease (dest : Nat)
  /-- TIME_EXCHANGE (R271). Every 100 µs each up port sends a time flit to its peer. -/
  | timeExchange (port : Nat)
  /-- TIME_FLIT (R272). A received time flit yields the link delay, the choice of root and upstream, and a step or slew of device time. -/
  | timeFlit (port : Nat) (f : TimeFlit)
  /-- UPSTREAM_TIMEOUT (R272). With no exchange from the upstream for 1 ms, the device takes a new upstream or becomes UNLOCKED. -/
  | upstreamTimeout
  /-- PEER_SIGNAL_DETECTED (R433). A waiting hinge port detects its peer's signal and starts training under a 2 s limit. -/
  | peerSignalDetected (port : Nat)
  /-- HINGE_TRAINING_DONE (R257). Training ends with the node and port exchange; the port comes up, or is set to MISMATCH. -/
  | hingeTrainingDone (port node peerPort : Nat)
  /-- HINGE_TRAINING_TIMEOUT (R433). A hinge port whose training does not finish within 2 s is left with CAUSE 6. -/
  | hingeTrainingTimeout (port : Nat)
  /-- GROUP_ACT (R275). Activates a collective group and exchanges its descriptor with the ring neighbours. -/
  | groupAct (qpn : Nat)
  /-- GROUP_CONFIRM (R275). A neighbour's confirmation arrives; when all have confirmed the activation completes, or it fails with WARD_MISMATCH. -/
  | groupConfirm (g port : Nat) (agrees : Bool)
  /-- GROUP_ACT_TIMEOUT (R275). A neighbour that does not confirm within 100 ms fails the activation with UNREACHABLE. -/
  | groupActTimeout (g : Nat)
  /-- GROUP_DEACT (R276). Ends a group once its open operations have completed or faulted, releasing its slots. -/
  | groupDeact (qpn : Nat)
  /-- GROUP_RELEASED (R276). The last open operation of a deactivating group ends and its slots and ID are freed. -/
  | groupReleased (g : Nat)
  /-- LEVEL0_REDUCTION (R282). When every contributor has delivered a chunk, the I/O die sums the contributions in ascending order and rounds to FP32. -/
  | level0Reduction (g optag chunk : Nat)
  /-- SLOT_CLAIM_GRANTED (R290). A waiting whole-chunk slot claim is granted in (PRIO, GROUP) order. -/
  | slotClaimGranted (g axis : Nat)
  /-- STAGING (R284). The member's value for a chunk is rounded to torus format and staged in a slot, and a chunk-ready packet is sent. -/
  | staging (g optag chunk : Nat)
  /-- CHUNK_READY (R291). A chunk-ready packet from the next member allows the partial to be sent. -/
  | chunkReady (p : Packet)
  /-- REDUCE_DATA (R285). A reduce partial arrives; the hinge switch adds the staged value, rounds once and forwards it, or finishes it at the owner. -/
  | reduceData (p : Packet)
  /-- GATHER_DATA (R286). A broadcast chunk copy arrives, is written to DST and passed on unchanged. -/
  | gatherData (p : Packet)
  /-- ALL_TO_ALL_DATA (R295). An all-to-all row piece arrives and is written into its slot. -/
  | allToAllData (p : Packet)
  /-- OPERATION_DONE (R293). When all chunks are done, writes RECORD and then increments DONE_SIG. -/
  | operationDone (g optag : Nat)
  /-- OP_LIMIT_EXPIRY (R300). An operation without progress for OP_LIMIT faults with WAIT_TIMEOUT and releases its slots. -/
  | opLimitExpiry (g optag : Nat)
  /-- PAGE_ABSENT_REPORT (R196). A PAGE_ABSENT fault reaches the home scheduler, which starts recomputation or completes the request. -/
  | pageAbsentReport (r : Nat)
  /-- RECOMPUTE_DONE (R196). When the recompute tasks complete, RECOMP is cleared and the faulted task is re-dispatched. -/
  | recomputeDone (r : Nat)
  /-- EXPORT_WRITE_ACKNOWLEDGED (R218). When all writes of a page are acknowledged it becomes EXPORTED; when the layer is done E_l is raised and the marker sent. -/
  | exportWriteAcknowledged (b page : Nat)
  /-- MARKER_ACKNOWLEDGED (R223). The partner acknowledges a marker; a LAST marker lets the completion follow and UNBIND end the binding. -/
  | markerAcknowledged (b layer : Nat)
  /-- GRANT_TAIL (R213). A partner's GRANT_TAIL write makes the device consume grant entries and file or discard each. -/
  | grantTail (qpn slot : Nat) (tail : BitVec 32)
  /-- CREDIT_WAIT_EXPIRY (R224). A binding that waited CREDIT_WAIT for a grant fails with NO_CREDIT. -/
  | creditWaitExpiry (b : Nat)
  /-- PSN_SEQUENCE_ERROR_NAK (R225). A PSN sequence error NAK causes go-back-N retransmission and is counted. -/
  | psnSequenceErrorNak (qpn : Nat)
  /-- RNR_NAK (R225). An RNR NAK causes a retry after the RNR timer. -/
  | rnrNak (qpn : Nat)
  /-- RNR_TIMER_EXPIRY (R225). The RNR timer expires and the request is retried. -/
  | rnrTimerExpiry (qpn : Nat)
  /-- ACK_TIMEOUT (R225). An acknowledgement timeout retransmits, up to seven times. -/
  | ackTimeout (qpn : Nat)
  /-- RETRIES_EXHAUSTED (R225). The queue pair goes to error; an export partner fails over to another queue pair or is lost. -/
  | retriesExhausted (qpn : Nat)
  /-- REMOTE_ACCESS_ERROR_NAK (R225). A remote access NAK puts the queue pair in error and fails the binding with REMOTE_ACCESS. -/
  | remoteAccessErrorNak (qpn : Nat)
  /-- REMOTE_OPERATIONAL_ERROR_NAK (R225). A remote operational NAK puts the queue pair in error. -/
  | remoteOperationalErrorNak (qpn : Nat)
  /-- EXPORT_LINK_DOWN (R394). An export port link goes down and retrains. -/
  | exportLinkDown (port : Nat)
  /-- EXPORT_RETRAIN_TIMEOUT (R394). An export port that does not retrain within 2 s retires. -/
  | exportRetrainTimeout (port : Nat)
  /-- EXPORT_FEC_WINDOW_END (R394). At each one-second window end, ten windows in a row of excess FEC errors retire the export port. -/
  | exportFecWindowEnd (port uncorrectable : Nat)
  /-- INBOUND_RDMA_WRITE (R328). An inbound RDMA WRITE is checked by key and space and applied. -/
  | inboundRdmaWrite (f : InFrame) (gid : Nat) (rkey : BitVec 32) (addr : Nat) (data : List Byte)
  /-- INBOUND_RDMA_READ (R328). An inbound RDMA READ is checked and answered. -/
  | inboundRdmaRead (f : InFrame) (gid : Nat) (rkey : BitVec 32) (addr len : Nat)
  /-- RDMA_WRITE_WITH_IMMEDIATE (R327). An inbound write with immediate is answered with an invalid-request NAK and counted. -/
  | rdmaWriteWithImmediate (qpn : Nat)
  /-- RDMA_READ_RESPONSE (R327). Response data to an outbound RDMA READ of LOAD or FW_UPDATE arrives. -/
  | rdmaReadResponse (data : Option (List Byte))
  /-- SQ_TAIL (R331). A doorbell write of the submission count announces new entries, or is ignored and counted. -/
  | sqTail (qpn : Nat) (v : BitVec 32)
  /-- CQ_HEAD (R331). A doorbell write of the completion count frees completion ring room. -/
  | cqHead (qpn : Nat) (v : BitVec 32)
  /-- SUBMISSION_NOP (R333). A NOP submission entry completes with STATUS 0. -/
  | submissionNop (qpn : Nat)
  /-- RUN (R333). A RUN entry is checked, bucketed and its tasks and binding set up. -/
  | run (qpn : Nat)
  /-- CE_MARKED_PACKET (R334). A CE-marked packet makes the receiver return a CNP, at most one per queue pair per 50 µs. -/
  | ceMarkedPacket (qpn : Nat)
  /-- CNP (R334). A received CNP cuts the queue pair's rate and raises alpha. -/
  | cnp (qpn : Nat)
  /-- RATE_RECOVERY_PERIOD_END (R334). Each period without a CNP lowers alpha and recovers the rate. -/
  | rateRecoveryPeriodEnd (qpn : Nat)
  /-- PFC_PAUSE_FRAME (R334). A received PFC frame pauses or resumes the lossless priority. -/
  | pfcPauseFrame (port prio : Nat) (pause : Bool)
  /-- HOST_LINK_DOWN (R337). The host port link goes down, outbound traffic is held and the port retrains. -/
  | hostLinkDown
  /-- HOST_LINK_UP (R337). The host port link returns and held traffic resumes. -/
  | hostLinkUp
  /-- QP_CREATE (R329). Creates a queue pair, or reconnects one in error and replays its held completions. -/
  | qpCreate
  /-- QP_DESTROY (R338). Destroys a queue pair and cancels its queue's undispatched entries. -/
  | qpDestroy
  /-- QUEUE_CREATE (R330). Creates a Gotar queue with its submission and completion rings. -/
  | queueCreate
  /-- QUEUE_DESTROY (R338). Destroys a Gotar queue. -/
  | queueDestroy
  /-- MAP (R242). Allocates and zeroes frames and maps them into a ward's space, or fails with CAPACITY and a shortfall. -/
  | map
  /-- LOAD (R241). Maps a range and fills it by RDMA READ from host memory. -/
  | load
  /-- UNMAP (R243). Removes mappings at a cutover and frees the frames after earlier accesses complete. -/
  | unmap
  /-- PROTECT (R243). Changes page permissions at a cutover. -/
  | protect
  /-- MAPPING_CUTOVER_DONE (R243). Accesses translated before the cutover have completed, and the UNMAP or PROTECT completes. -/
  | mappingCutoverDone (ward : Nat)
  /-- LEND (R251). Allocates frames for a lending window to a borrower node and ward. -/
  | lend
  /-- UNLEND (R254). Ends a lending window after accepted requests, and frees its frames. -/
  | unlend
  /-- BORROW (R251). Asks the lender about a window and maps it into the ward. -/
  | borrow
  /-- WINDOW_QUERY (R251). The lender answers a borrower's query with the window's size, borrower and write permission. -/
  | windowQuery (src window ward size : Nat) (writable : Bool)
  /-- CSR_WRITE (R445). A signed command writes one masked 64-bit register word, including fields reserved to signed commands. -/
  | csrWrite
  /-- NET_CFG (R326). Sets the MAC and IP addresses of a port. -/
  | netCfg
  /-- WARD_CREATE (R340). Checks the policy, generates the key, allocates save frames, clears counters and activates the ward. -/
  | wardCreate
  /-- WARD_DELETE (R344). Cancels the ward's work, releases its groups, partners, queues, clusters and memory, and destroys its key. -/
  | wardDelete
  /-- WARD_POLICY (R343). Changes a ward's policy, with each field taking effect at its stated point. -/
  | wardPolicy
  /-- OWNER_SET (R358). Installs a new owner key and writes the owner record to the journal. -/
  | ownerSet
  /-- FW_UPDATE (R356). Reads, verifies and writes a firmware bundle into the idle slot, with the slot record last. -/
  | fwUpdate
  /-- QUOTE (R359). Writes a signed 768-byte attestation quote to host memory. -/
  | quote
  /-- SCRUB_DUE (R237). A patrol scrub read of a 64-byte unit falls due at its even spacing within the scrub pass. -/
  | scrubDue (pc : Nat)
  /-- PATROL_SCRUB_READ (R237). Reads a unit and handles it under Table 9.5 as one indivisible read and write-back. -/
  | patrolScrubRead (pc : Nat) (upsets : List Upset)
  /-- TRANSLATION_COPY_REBUILT (R238). A lost translation-table copy is rebuilt in another stack within 100 ms. -/
  | translationCopyRebuilt (stack : Nat)
  /-- CONTROL_CORE_FAULT (R397). A control-core parity error or 1 ms walk time limit excludes the cluster. -/
  | controlCoreFault (g cause : Nat)
  /-- ESTIMATION_WINDOW_END (R369). Estimates power, divides the cap and sets duties, frequency targets and HBM limits. -/
  | estimationWindowEnd (counts : List (List Nat)) (temps : List Nat)
  /-- BUDGETS_IN_FORCE (R372). The new duties and HBM limits reach the clusters and controllers. -/
  | budgetsInForce
  /-- FREQUENCY_STEP_DONE (R362). A 25 MHz frequency step completes and the next step toward TARGET may begin. -/
  | frequencyStepDone (g : Nat)
  /-- AVSBUS_RESPONSE (R462). A regulator answers an AVSBus transaction or reports a settled rail. -/
  | avsbusResponse (die : Nat) (ok settled : Bool)
  /-- AVSBUS_RETRY_TIMER (R462). After a failed VDD_C transaction, the device retries every 1 ms. -/
  | avsbusRetryTimer (die : Nat)
  /-- DROOP_DETECTED (R376). The supply crossing below the threshold stretches the cluster's CCLK. -/
  | droopDetected (g : Nat)
  /-- DROOP_STRETCH_END (R376). HOLD_CYCLES stretched cycles after recovery, the stretch ends and the 1 µs recovery begins. -/
  | droopStretchEnd (g : Nat)
  /-- DROOP_RECOVERY_END (R377). After the 1 µs recovery, held frequency steps resume. -/
  | droopRecoveryEnd (g : Nat)
  /-- THERMAL_TRIP (R381). A reading of 105 °C drives THERMTRIP_N, stops all clocks and records the event. -/
  | thermalTrip (sensor reading : Nat)
  /-- PWR_CAP_WRITE (R368). A cap write is clamped to 500 to 1,600 W and used from the next window end. -/
  | pwrCapWrite (req : Requester) (v : Word)
  /-- TROUBLE_LOG_WRITE (R401). A queued trouble-log entry is written into the ring and HEAD is raised. -/
  | troubleLogWrite
  /-- CE_LIMIT_WINDOW_END (R402). At each one-second window end, the suppressed corrections are written as one REPEAT entry. -/
  | ceLimitWindowEnd (pc : Nat)
  /-- EVENT_NOTICE (R399). Writes an event notice into queue pair 0's completion ring when there is room. -/
  | eventNotice
  /-- OPERATING_SECOND_END (R407). Adds an operating second, updates the histograms and extremes, and rolls correction periods. -/
  | operatingSecondEnd
  /-- HISTORY_PERIOD (R415). Every PERIOD_MIN minutes, queues a HISTORY record. -/
  | historyPeriod
  /-- JOURNAL_APPEND (R413). Programs a queued journal record with its mark last, rewriting it after an error. -/
  | journalAppend (programOk : Bool)
  /-- BLOCK_ERASE_DONE (R418). An erase of a 64 KiB journal block completes. -/
  | blockEraseDone (ok : Bool)
  /-- APPEND (R415). A write of JRN_CTL.APPEND appends a HISTORY record at once. -/
  | append (req : Requester)
  /-- SHUTDOWN (R416). A write of JRN_CTL.SHUTDOWN appends HISTORY and SHUTDOWN records and sets SHUTDOWN_DONE. -/
  | shutdown (req : Requester)
  /-- POWER_ON (R422). Supplies rise in order and PWR_GOOD is raised by the board. -/
  | powerOn (order : List Nat)
  /-- PWR_GOOD_FALL (R423). PWR_GOOD falling stops every clock within 1 µs. -/
  | pwrGoodFall
  /-- RESET_N_ASSERT (R423). RESET_N going low holds the device in reset and abandons any shutdown. -/
  | resetNAssert
  /-- RESET_N_RELEASE (R423). RESET_N rising arms the start; the I3C target begins answering under R424. -/
  | resetNRelease
  /-- CLOCK_DETECTED (R423). After 4,096 good SYSCLK cycles, with PWR_GOOD and RESET_N high, step 3 begins. -/
  | clockDetected
  /-- BOOT_ROM (R427). Step 3 chooses a slot, verifies the stages, forms the measurement and derives the identity. -/
  | bootRom (puf : Option (List Byte))
  /-- DEVICE_CONTROLLER_UP (R427). Step 4 brings up the device controller, AVSBus control, the CSR bus and the power manager. -/
  | deviceControllerUp (vddcAnswers : List Bool)
  /-- JOURNAL_RECOVERY (R419). Step 5 chooses a region, replays the journal, counts the start and appends START. -/
  | journalRecovery
  /-- HBM_TRAINING (R429). Step 6 trains and clears every pseudo-channel and places the device region. -/
  | hbmTraining (failed : List Nat)
  /-- SELF_TEST (R430). Step 7 tests all units, derives voltage points and calibration, and fixes the core map. -/
  | selfTest (result : SelfTest)
  /-- LINK_TRAINING (R432). Step 8 trains the die links, then the hinge ports and the host port. -/
  | linkTraining (dieLinksFailed : List Nat) (hinge : List HingeTrain) (hostUp : Bool)
  /-- READY_REPORT (R434). Step 9 sets STATE ready or degraded and sends the I3C in-band interrupt. -/
  | readyReport
  /-- START_STEP_TIMEOUT (R425). A start step that exceeds its maximum counts as failed. -/
  | startStepTimeout
  /-- ORDERLY_RESTART (R436). SYS_RESTART KIND 1 waits for a running update, shuts down and restarts from step 3. -/
  | orderlyRestart (req : Requester)
  /-- IMMEDIATE_RESTART (R436). SYS_RESTART KIND 2 restarts from step 3 within 1 ms. -/
  | immediateRestart (req : Requester)
  /-- KEYWAY_LOAD (R203). A commit of EXP_KEYWAY_LOAD copies a keyway into a slot, or sets ERR. -/
  | keywayLoad (req : Requester) (v : Word)
  /-- PARTNER_ENABLE (R202). Writing ENABLE 0 to 1 checks the partner record and activates it, or flags a configuration error. -/
  | partnerEnable (req : Requester) (p : Nat) (v : Word)
  /-- PARTNER_DISABLE (R227). Writing ENABLE 1 to 0 loses the partner with CAUSE 7. -/
  | partnerDisable (req : Requester) (p : Nat) (v : Word)
  /-- EXPORT_PORT_ENABLE (R432). Setting EXP_PORT_CFG.ENABLE starts training of the export port. -/
  | exportPortEnable (port : Nat)
  /-- CONNECT (R455). HOST_QP0_CFG.CONNECT checks the fields and brings queue pair 0 to RTS, or sets CFG_ERR. -/
  | connect (v : Word)
  /-- DROP (R455). HOST_QP0_CFG.DROP moves queue pair 0 to ERROR. -/
  | drop (v : Word)
  /-- SYS_TIME_OFFSET_WRITE (R453). A write of the time offset changes device time from the next cycle, without cutting timed intervals. -/
  | sysTimeOffsetWrite (req : Requester) (v : Word)
  /-- REGISTER_WRITE (R445). A write to a register without behaviour of its own, applied by requester rights, RWX, W1C and wide staging. -/
  | registerWrite (req : Requester) (offset : Nat) (v : Word)
  /-- SET_POINTER (R452). An I3C private write with OP 0x10 sets the read pointer. -/
  | setPointer (data : List Byte)
  /-- WRITE_WORDS (R452). An I3C private write with OP 0x20 applies its words in ascending order, refusing those denied. -/
  | writeWords (data : List Byte)
  /-- PRIVATE_READ (R452). An I3C private read returns STATUS and pointed data, or is NACKed until the write finishes. -/
  | privateRead
  /-- RSTDAA (R451). I3C CCC that resets the dynamic address. -/
  | rstdaa
  /-- SETDASA (R451). I3C CCC that assigns a dynamic address from the static address. -/
  | setdasa (addr : BitVec 7)
  /-- ENTDAA (R451). I3C CCC for dynamic address assignment. -/
  | entdaa (addr : BitVec 7)
  /-- ENEC (R451). I3C CCC that enables events such as in-band interrupts. -/
  | enec (events : BitVec 8)
  /-- DISEC (R451). I3C CCC that disables events. -/
  | disec (events : BitVec 8)
  /-- GETPID (R451). I3C CCC that returns the provisioned ID. -/
  | getpid
  /-- GETBCR (R451). I3C CCC that returns the bus characteristics register. -/
  | getbcr
  /-- GETDCR (R451). I3C CCC that returns the device characteristics register. -/
  | getdcr
  /-- GETSTATUS (R451). I3C CCC that returns device status. -/
  | getstatus
  /-- GETMXDS (R451). I3C CCC that returns maximum data speed. -/
  | getmxds
  /-- HOT_JOIN (R451). After RESET_N rises on a bus already in I3C mode, the target requests Hot-Join once. -/
  | hotJoin
  /-- BYPASS (R468). JTAG instruction selecting the bypass register. -/
  | bypass
  /-- IDCODE (R468). JTAG instruction selecting the IDCODE register. -/
  | idcode
  /-- SAMPLE_PRELOAD (R468). JTAG boundary-scan sample and preload. -/
  | samplePreload (data : Nat)
  /-- EXTEST (R468). JTAG external test driving pins, only while RESET_N is low. -/
  | extest (pins : Nat)
  /-- EXTEST_PULSE (R468). IEEE 1149.6 pulse test of the SerDes lanes. -/
  | extestPulse
  /-- EXTEST_TRAIN (R468). IEEE 1149.6 train test of the SerDes lanes. -/
  | extestTrain
  /-- CLAMP (R468). JTAG clamp of outputs with bypass selected. -/
  | clamp
  /-- HIGHZ (R468). JTAG instruction that places outputs in high impedance. -/
  | highz
  /-- TAP_RESET (R468). A TAP reset through TRST_N or TMS resets the TAP but never the device. -/
  | tapReset (viaTrst : Bool)
  /-- DIE_LINK_RETRAIN_DONE (R396). A die-to-die link that went down during operation completes its retrain within 1 ms and its held traffic resumes. -/
  | dieLinkRetrainDone (link : Nat)
  /-- EXPORT_LINK_UP (R394). An export port finishes training, after enable or after a link-down, and its link comes up and carries traffic. -/
  | exportLinkUp (port : Nat)
  /-- HOST_RDMA_WRITE_ACKNOWLEDGED (R338). A RoCEv2 acknowledgement arrives for an outbound host-port RDMA WRITE, such as a completion entry, notice or quote, and releases it from retransmission. -/
  | hostRdmaWriteAcknowledged (qpn : Nat)
  /-- WAIT_LIMIT_EXPIRY (R185). The task's WAIT_LIMIT runs out for a SCATTER, a PAGE.TRUNC or a waiting collective opening, which then faults with WAIT_TIMEOUT. -/
  | waitLimitExpiry (c : Nat)
  /-- SLOT_PROGRAM_DONE (R356). The flash programming of a FW_UPDATE bundle into the idle slot completes, and the read-back, the slot record and the command completion follow. -/
  | slotProgramDone (readBackOk : Bool)
  /-- WINDOW_QUERY_ANSWER (R251). The lender's answer to a BORROW query arrives at the borrower, which maps the window or fails the command with UNMAPPED. -/
  | windowQueryAnswer (lender window : Nat) (ok : Bool)
  /-- DESCRIPTOR_EXCHANGE (R275). A ring neighbour's group descriptor arrives during GROUP_ACT, and the device compares it with its own and confirms or rejects. -/
  | descriptorExchange (port ward w0 w1 : Nat)
deriving DecidableEq, Repr

end Sys2Proof
end

