-- ==== Sys2Proof/Decode.lean ====
section
/-! DEFINITION. Decoding. The rows of spec/opcode_table.json give no bits (the commands are events of a block), so no
word spells a command through decodeTableWord. The words of the cores' instructions are those of the layout tables of
12_instruction_reference.md: encodeWords and decodeWords give them, field by field. Table 12.1 is here as the map of
defined opcodes too, which the sequencer's fetch consults. -/
namespace Sys2Proof

/-- No row of the table gives bits, so no word spells a command. -/
def decodeTableWord (_nbits _w : Nat) : Option Instr := none

/-- OPC, UNIT and EXT of a base word (Table 2.5). -/
def wordOpc (w : Nat) : Nat := bits w 63 56
def wordUnit (w : Nat) : Nat := bits w 55 53
def wordExt (w : Nat) : Bool := w.testBit 52

/-- Table 12.1: whether the sequencer knows the (UNIT, OPC) pair of a word (R44, R311). Chain words are undefined
there. -/
def opcodeDefined (w : Nat) : Bool :=
  let o := wordOpc w
  match wordUnit w with
  | 0 => decide (o ≤ 0x0C) || (decide (0x10 ≤ o) && decide (o ≤ 0x15)) || (decide (0x20 ≤ o) && decide (o ≤ 0x26))
  | 1 => decide (o ≤ 3)
  | 2 => decide (o ≤ 0x13) || (decide (0x20 ≤ o) && decide (o ≤ 0x22))
  | 3 => decide (o ≤ 3) || decide (o = 8) || decide (o = 0x10) || decide (o = 0x11)
  | 4 => decide (o ≤ 2)
  | 5 => decide (o ≤ 3)
  | 6 => decide (o ≤ 3)
  | _ => false

/-- Table 12.2: bits [51:0] of the base word. -/
def ScalarWord.base (w : ScalarWord) : BitVec 52 :=
  w.rsv.extractLsb' 8 5 ++ BitVec.ofBool w.i ++ w.rd ++ w.ra ++ w.rb ++ w.rsv.extractLsb' 0 8 ++ w.imm

/-- Table 12.2: the fields of the base word. -/
def ScalarWord.ofWords (b : Word) : ScalarWord :=
  { ext := b.getLsbD 52, rsv := b.extractLsb' 47 5 ++ b.extractLsb' 20 8, i := b.getLsbD 46, rd := b.extractLsb' 40 6,
    ra := b.extractLsb' 34 6, rb := b.extractLsb' 28 6, imm := b.extractLsb' 0 20 }

/-- Table 12.6: bits [51:0] of the base word. -/
def MmaWord.base (w : MmaWord) : BitVec 52 :=
  w.afmt ++ w.bfmt ++ w.rd ++ w.ra ++ w.rb ++ w.rc ++ w.eng ++ w.form ++ w.rsv ++ w.glen ++ BitVec.ofBool w.acc
  ++ w.split ++ BitVec.ofBool w.gather ++ BitVec.ofBool w.sat

/-- Table 12.6: the fields of the base word. -/
def MmaWord.ofWords (b : Word) : MmaWord :=
  { ext := b.getLsbD 52, afmt := b.extractLsb' 49 3, bfmt := b.extractLsb' 46 3, rd := b.extractLsb' 40 6,
    ra := b.extractLsb' 34 6, rb := b.extractLsb' 28 6, rc := b.extractLsb' 22 6, eng := b.extractLsb' 20 2,
    form := b.extractLsb' 18 2, rsv := b.extractLsb' 14 4, glen := b.extractLsb' 5 9, acc := b.getLsbD 4,
    split := b.extractLsb' 2 2, gather := b.getLsbD 1, sat := b.getLsbD 0 }

/-- Table 12.7: bits [51:0] of the base word. -/
def MmfWord.base (w : MmfWord) : BitVec 52 :=
  w.afmt ++ w.bfmt ++ w.rd ++ w.ra ++ w.rb ++ w.rc ++ w.eng ++ w.rsv ++ BitVec.ofBool w.kind ++ BitVec.ofBool w.ref
  ++ BitVec.ofBool w.init

/-- Table 12.7: the extension word. -/
def MmfWord.extension (w : MmfWord) : Word :=
  w.form ++ w.rsvExt.extractLsb' 31 14 ++ w.dt ++ w.rsvExt.extractLsb' 28 3 ++ w.darea ++ w.refBuf
  ++ w.rsvExt.extractLsb' 0 28

/-- Table 12.7: the fields of the two words, the second 0 where EXT is 0 (R306). -/
def MmfWord.ofWords (b x : Word) : MmfWord :=
  { ext := b.getLsbD 52, afmt := b.extractLsb' 49 3, bfmt := b.extractLsb' 46 3, rd := b.extractLsb' 40 6,
    ra := b.extractLsb' 34 6, rb := b.extractLsb' 28 6, rc := b.extractLsb' 22 6, eng := b.extractLsb' 20 2,
    rsv := b.extractLsb' 3 17, kind := b.getLsbD 2, ref := b.getLsbD 1, init := b.getLsbD 0,
    form := x.extractLsb' 62 2, rsvExt := x.extractLsb' 48 14 ++ x.extractLsb' 40 3 ++ x.extractLsb' 0 28,
    dt := x.extractLsb' 43 5, darea := x.extractLsb' 34 6, refBuf := x.extractLsb' 28 6 }

/-- Table 12.8: bits [51:0] of the base word. -/
def VecWord.base (w : VecWord) : BitVec 52 :=
  w.type ++ w.cc ++ w.rd ++ w.ra ++ w.rb ++ w.rc ++ w.rsv ++ w.rnd

/-- Table 12.8: the extension word. -/
def VecWord.extension (w : VecWord) : Word :=
  w.srb ++ w.salt ++ w.rsvExt

/-- Table 12.8: the fields of the two words, the second 0 where EXT is 0 (R306). -/
def VecWord.ofWords (b x : Word) : VecWord :=
  { ext := b.getLsbD 52, type := b.extractLsb' 50 2, cc := b.extractLsb' 46 4, rd := b.extractLsb' 40 6,
    ra := b.extractLsb' 34 6, rb := b.extractLsb' 28 6, rc := b.extractLsb' 22 6, rsv := b.extractLsb' 2 20,
    rnd := b.extractLsb' 0 2, srb := x.extractLsb' 60 4, salt := x.extractLsb' 48 12, rsvExt := x.extractLsb' 0 48 }

/-- Table 12.11: bits [51:0] of the base word. -/
def CvtWord.base (w : CvtWord) : BitVec 52 :=
  w.src ++ w.dst ++ w.rd ++ w.ra ++ w.rb ++ w.rc ++ w.rsv ++ BitVec.ofBool w.sat ++ w.rnd

/-- Table 12.11: the extension word. -/
def CvtWord.extension (w : CvtWord) : Word :=
  w.srb ++ w.salt ++ w.rsvExt

/-- Table 12.11: the fields of the two words, the second 0 where EXT is 0 (R306). -/
def CvtWord.ofWords (b x : Word) : CvtWord :=
  { ext := b.getLsbD 52, src := b.extractLsb' 49 3, dst := b.extractLsb' 46 3, rd := b.extractLsb' 40 6,
    ra := b.extractLsb' 34 6, rb := b.extractLsb' 28 6, rc := b.extractLsb' 22 6, rsv := b.extractLsb' 3 19,
    sat := b.getLsbD 2, rnd := b.extractLsb' 0 2, srb := x.extractLsb' 60 4, salt := x.extractLsb' 48 12,
    rsvExt := x.extractLsb' 0 48 }

/-- R317: bits [51:0] of the base word. -/
def VMemWord.base (w : VMemWord) : BitVec 52 :=
  w.fmt ++ w.rsv.extractLsb' 2 2 ++ w.rd ++ w.ra ++ w.rb ++ w.rc ++ w.rsv.extractLsb' 0 2 ++ w.imm

/-- R317: the extension word. -/
def VMemWord.extension (w : VMemWord) : Word :=
  w.srb ++ w.salt ++ w.rsvExt

/-- R317: the fields of the two words, the second 0 where EXT is 0 (R306). -/
def VMemWord.ofWords (b x : Word) : VMemWord :=
  { ext := b.getLsbD 52, fmt := b.extractLsb' 48 4, rsv := b.extractLsb' 46 2 ++ b.extractLsb' 20 2,
    rd := b.extractLsb' 40 6, ra := b.extractLsb' 34 6, rb := b.extractLsb' 28 6, rc := b.extractLsb' 22 6,
    imm := b.extractLsb' 0 20, srb := x.extractLsb' 60 4, salt := x.extractLsb' 48 12, rsvExt := x.extractLsb' 0 48 }

/-- R319: bits [51:0] of the base word. -/
def ChainLdWord.base (w : ChainLdWord) : BitVec 52 :=
  w.rsv.extractLsb' 27 6 ++ w.rd ++ w.ra ++ w.rsv.extractLsb' 0 27 ++ w.n

/-- R319: the fields of the base word. -/
def ChainLdWord.ofWords (b : Word) : ChainLdWord :=
  { ext := b.getLsbD 52, rsv := b.extractLsb' 46 6 ++ b.extractLsb' 7 27, rd := b.extractLsb' 40 6,
    ra := b.extractLsb' 34 6, n := b.extractLsb' 0 7 }

/-- Table 12.13: bits [51:0] of the base word. -/
def EpiWord.base (w : EpiWord) : BitVec 52 :=
  w.slot ++ w.arrange ++ BitVec.ofBool w.sat ++ w.statout ++ w.darea ++ w.sig ++ w.out ++ w.rsv ++ w.dcol ++ w.qgran
  ++ w.qcols ++ w.rnd

/-- Table 12.13: the extension word. -/
def EpiWord.extension (w : EpiWord) : Word :=
  w.srb ++ w.salt ++ w.qscale ++ w.atile ++ w.atile2 ++ w.defer ++ w.twopass ++ w.npart ++ w.send ++ w.layout ++ w.eng
  ++ w.dcols ++ w.rsvExt

/-- Table 12.13: the fields of the two words, the second 0 where EXT is 0 (R306). -/
def EpiWord.ofWords (b x : Word) : EpiWord :=
  { ext := b.getLsbD 52, slot := b.extractLsb' 49 3, arrange := b.extractLsb' 47 2, sat := b.getLsbD 46,
    statout := b.extractLsb' 40 6, darea := b.extractLsb' 34 6, sig := b.extractLsb' 28 6, out := b.extractLsb' 22 6,
    rsv := b.extractLsb' 20 2, dcol := b.extractLsb' 6 14, qgran := b.extractLsb' 4 2, qcols := b.extractLsb' 2 2,
    rnd := b.extractLsb' 0 2, srb := x.extractLsb' 60 4, salt := x.extractLsb' 48 12, qscale := x.extractLsb' 43 5,
    atile := x.extractLsb' 40 3, atile2 := x.extractLsb' 36 4, defer := x.extractLsb' 34 2,
    twopass := x.extractLsb' 32 2, npart := x.extractLsb' 20 12, send := x.extractLsb' 18 2,
    layout := x.extractLsb' 16 2, eng := x.extractLsb' 14 2, dcols := x.extractLsb' 10 4, rsvExt := x.extractLsb' 0 10 }

/-- Table 12.14: bits [51:0] of the base word. -/
def KvaWord.base (w : KvaWord) : BitVec 52 :=
  w.slot ++ w.arrange ++ w.rsv.extractLsb' 25 7 ++ w.ra ++ w.rsv.extractLsb' 1 24 ++ w.eng ++ w.layout ++ w.atile
  ++ w.rsv.extractLsb' 0 1 ++ w.rnd

/-- Table 12.14: the extension word. -/
def KvaWord.extension (w : KvaWord) : Word :=
  w.srb ++ w.salt ++ w.rsvExt

/-- Table 12.14: the fields of the two words, the second 0 where EXT is 0 (R306). -/
def KvaWord.ofWords (b x : Word) : KvaWord :=
  { ext := b.getLsbD 52, slot := b.extractLsb' 49 3, arrange := b.extractLsb' 47 2,
    rsv := b.extractLsb' 40 7 ++ b.extractLsb' 10 24 ++ b.extractLsb' 2 1, ra := b.extractLsb' 34 6,
    eng := b.extractLsb' 8 2, layout := b.extractLsb' 6 2, atile := b.extractLsb' 3 3, rnd := b.extractLsb' 0 2,
    srb := x.extractLsb' 60 4, salt := x.extractLsb' 48 12, rsvExt := x.extractLsb' 0 48 }

/-- Table 12.15: bits [51:0] of the base word. -/
def AttnWord.base (w : AttnWord) : BitVec 52 :=
  w.rope ++ w.form ++ w.shape ++ w.out ++ w.q ++ w.acb ++ w.walk ++ w.rsv ++ w.stat ++ w.marea ++ w.sig ++ w.rnd

/-- Table 12.15: the extension word. -/
def AttnWord.extension (w : AttnWord) : Word :=
  w.srb ++ w.salt ++ BitVec.ofBool w.bias ++ w.send ++ w.npart ++ w.rsvExt

/-- Table 12.15: the fields of the two words, the second 0 where EXT is 0 (R306). -/
def AttnWord.ofWords (b x : Word) : AttnWord :=
  { ext := b.getLsbD 52, rope := b.extractLsb' 50 2, form := b.extractLsb' 48 2, shape := b.extractLsb' 46 2,
    out := b.extractLsb' 40 6, q := b.extractLsb' 34 6, acb := b.extractLsb' 28 6, walk := b.extractLsb' 22 6,
    rsv := b.extractLsb' 20 2, stat := b.extractLsb' 14 6, marea := b.extractLsb' 8 6, sig := b.extractLsb' 2 6,
    rnd := b.extractLsb' 0 2, srb := x.extractLsb' 60 4, salt := x.extractLsb' 48 12, bias := x.getLsbD 47,
    send := x.extractLsb' 45 2, npart := x.extractLsb' 33 12, rsvExt := x.extractLsb' 0 33 }

/-- Table 12.16a: bits [51:0] of the base word. -/
def MoveWord.base (w : MoveWord) : BitVec 52 :=
  w.rsv.extractLsb' 9 1 ++ w.aop ++ w.rsv.extractLsb' 6 3 ++ w.rd ++ w.ra ++ w.rb ++ w.rc ++ w.rsv.extractLsb' 0 6
  ++ w.imm

/-- Table 12.16a: the fields of the base word. -/
def MoveWord.ofWords (b : Word) : MoveWord :=
  { ext := b.getLsbD 52, rsv := b.extractLsb' 51 1 ++ b.extractLsb' 46 3 ++ b.extractLsb' 16 6,
    aop := b.extractLsb' 49 2, rd := b.extractLsb' 40 6, ra := b.extractLsb' 34 6, rb := b.extractLsb' 28 6,
    rc := b.extractLsb' 22 6, imm := b.extractLsb' 0 16 }

/-- OPC, UNIT and EXT above bits [51:0] (Table 2.5). -/
def baseWord (opc : BitVec 8) (unit : BitVec 3) (ext : Bool) (low : BitVec 52) : Word :=
  opc ++ unit ++ BitVec.ofBool ext ++ low

/-- The core and the words of an instruction (Table 12.1 and its layout): the base word, with the extension word where the layout has
one (it is in the stream only where EXT is 1). None for a command that is no instruction. -/
def encodeWords : Instr → Option (Nat × Word × Word)
  | .nop c w => some (c, baseWord 0x00 0 w.ext w.base, 0)
  | .endTile c w => some (c, baseWord 0x01 0 w.ext w.base, 0)
  | .add c w => some (c, baseWord 0x02 0 w.ext w.base, 0)
  | .sub c w => some (c, baseWord 0x03 0 w.ext w.base, 0)
  | .and c w => some (c, baseWord 0x04 0 w.ext w.base, 0)
  | .or c w => some (c, baseWord 0x05 0 w.ext w.base, 0)
  | .xor c w => some (c, baseWord 0x06 0 w.ext w.base, 0)
  | .shl c w => some (c, baseWord 0x07 0 w.ext w.base, 0)
  | .shr c w => some (c, baseWord 0x08 0 w.ext w.base, 0)
  | .sra c w => some (c, baseWord 0x09 0 w.ext w.base, 0)
  | .mul c w => some (c, baseWord 0x0A 0 w.ext w.base, 0)
  | .minu c w => some (c, baseWord 0x0B 0 w.ext w.base, 0)
  | .maxu c w => some (c, baseWord 0x0C 0 w.ext w.base, 0)
  | .li c w => some (c, baseWord 0x10 0 w.ext w.base, 0)
  | .lis c w => some (c, baseWord 0x11 0 w.ext w.base, 0)
  | .ld c w => some (c, baseWord 0x12 0 w.ext w.base, 0)
  | .st c w => some (c, baseWord 0x13 0 w.ext w.base, 0)
  | .tld c w => some (c, baseWord 0x14 0 w.ext w.base, 0)
  | .tbase c w => some (c, baseWord 0x15 0 w.ext w.base, 0)
  | .beq c w => some (c, baseWord 0x20 0 w.ext w.base, 0)
  | .bne c w => some (c, baseWord 0x21 0 w.ext w.base, 0)
  | .blt c w => some (c, baseWord 0x22 0 w.ext w.base, 0)
  | .bge c w => some (c, baseWord 0x23 0 w.ext w.base, 0)
  | .bltu c w => some (c, baseWord 0x24 0 w.ext w.base, 0)
  | .bgeu c w => some (c, baseWord 0x25 0 w.ext w.base, 0)
  | .jmp c w => some (c, baseWord 0x26 0 w.ext w.base, 0)
  | .mma c w => some (c, baseWord 0x00 1 w.ext w.base, 0)
  | .cmma c w => some (c, baseWord 0x01 1 w.ext w.base, 0)
  | .mmfExp c w => some (c, baseWord 0x02 1 w.ext w.base, w.extension)
  | .mmfRow c w => some (c, baseWord 0x03 1 w.ext w.base, w.extension)
  | .vadd c w => some (c, baseWord 0x00 2 w.ext w.base, w.extension)
  | .vsub c w => some (c, baseWord 0x01 2 w.ext w.base, w.extension)
  | .vmul c w => some (c, baseWord 0x02 2 w.ext w.base, w.extension)
  | .vfma c w => some (c, baseWord 0x03 2 w.ext w.base, w.extension)
  | .vmin c w => some (c, baseWord 0x04 2 w.ext w.base, w.extension)
  | .vmax c w => some (c, baseWord 0x05 2 w.ext w.base, w.extension)
  | .vminnum c w => some (c, baseWord 0x06 2 w.ext w.base, w.extension)
  | .vmaxnum c w => some (c, baseWord 0x07 2 w.ext w.base, w.extension)
  | .vcmp c w => some (c, baseWord 0x08 2 w.ext w.base, w.extension)
  | .vsel c w => some (c, baseWord 0x09 2 w.ext w.base, w.extension)
  | .vexp2 c w => some (c, baseWord 0x0A 2 w.ext w.base, w.extension)
  | .vlog2 c w => some (c, baseWord 0x0B 2 w.ext w.base, w.extension)
  | .vrcp c w => some (c, baseWord 0x0C 2 w.ext w.base, w.extension)
  | .vsqrt c w => some (c, baseWord 0x0D 2 w.ext w.base, w.extension)
  | .vrsqrt c w => some (c, baseWord 0x0E 2 w.ext w.base, w.extension)
  | .vdiv c w => some (c, baseWord 0x0F 2 w.ext w.base, w.extension)
  | .cvt c w => some (c, baseWord 0x10 2 w.ext w.base, w.extension)
  | .vld c w => some (c, baseWord 0x11 2 w.ext w.base, w.extension)
  | .vst c w => some (c, baseWord 0x12 2 w.ext w.base, w.extension)
  | .vbcast c w => some (c, baseWord 0x13 2 w.ext w.base, w.extension)
  | .chainLd c w => some (c, baseWord 0x20 2 w.ext w.base, 0)
  | .epi c w => some (c, baseWord 0x21 2 w.ext w.base, w.extension)
  | .kva c w => some (c, baseWord 0x22 2 w.ext w.base, w.extension)
  | .mov c w => some (c, baseWord 0x00 3 w.ext w.base, 0)
  | .movSig c w => some (c, baseWord 0x01 3 w.ext w.base, 0)
  | .movS c w => some (c, baseWord 0x02 3 w.ext w.base, 0)
  | .movG c w => some (c, baseWord 0x03 3 w.ext w.base, 0)
  | .atomAdd c w => some (c, baseWord 0x08 3 w.ext w.base, 0)
  | .atomFetchAdd c w => some (c, baseWord 0x08 3 w.ext w.base, 0)
  | .atomSwap c w => some (c, baseWord 0x08 3 w.ext w.base, 0)
  | .atomCas c w => some (c, baseWord 0x08 3 w.ext w.base, 0)
  | .scatter c w => some (c, baseWord 0x10 3 w.ext w.base, 0)
  | .pageTrunc c w => some (c, baseWord 0x11 3 w.ext w.base, 0)
  | .attn c w => some (c, baseWord 0x00 4 w.ext w.base, w.extension)
  | .attnW c w => some (c, baseWord 0x01 4 w.ext w.base, w.extension)
  | .attnMrg c w => some (c, baseWord 0x02 4 w.ext w.base, w.extension)
  | .colRs c w => some (c, baseWord 0x00 5 w.ext w.base, 0)
  | .colAr c w => some (c, baseWord 0x01 5 w.ext w.base, 0)
  | .colAg c w => some (c, baseWord 0x02 5 w.ext w.base, 0)
  | .colA2a c w => some (c, baseWord 0x03 5 w.ext w.base, 0)
  | .fence c w => some (c, baseWord 0x00 6 w.ext w.base, 0)
  | .wait c w => some (c, baseWord 0x01 6 w.ext w.base, 0)
  | .waitI c w => some (c, baseWord 0x02 6 w.ext w.base, 0)
  | .signal c w => some (c, baseWord 0x03 6 w.ext w.base, 0)
  | _ => none

/-- The instruction of core c that a base word and the extension word after it spell: none where Table 12.1 lists no such
(UNIT, OPC) pair (R44). The fields of an absent extension word read as 0 (R306). -/
def decodeWords (c : Nat) (b ext : Word) : Option Instr :=
  let x := if b.getLsbD 52 then ext else 0
  match (b.extractLsb' 53 3).toNat, (b.extractLsb' 56 8).toNat with
  | 0, 0x00 => some (.nop c (.ofWords b))
  | 0, 0x01 => some (.endTile c (.ofWords b))
  | 0, 0x02 => some (.add c (.ofWords b))
  | 0, 0x03 => some (.sub c (.ofWords b))
  | 0, 0x04 => some (.and c (.ofWords b))
  | 0, 0x05 => some (.or c (.ofWords b))
  | 0, 0x06 => some (.xor c (.ofWords b))
  | 0, 0x07 => some (.shl c (.ofWords b))
  | 0, 0x08 => some (.shr c (.ofWords b))
  | 0, 0x09 => some (.sra c (.ofWords b))
  | 0, 0x0A => some (.mul c (.ofWords b))
  | 0, 0x0B => some (.minu c (.ofWords b))
  | 0, 0x0C => some (.maxu c (.ofWords b))
  | 0, 0x10 => some (.li c (.ofWords b))
  | 0, 0x11 => some (.lis c (.ofWords b))
  | 0, 0x12 => some (.ld c (.ofWords b))
  | 0, 0x13 => some (.st c (.ofWords b))
  | 0, 0x14 => some (.tld c (.ofWords b))
  | 0, 0x15 => some (.tbase c (.ofWords b))
  | 0, 0x20 => some (.beq c (.ofWords b))
  | 0, 0x21 => some (.bne c (.ofWords b))
  | 0, 0x22 => some (.blt c (.ofWords b))
  | 0, 0x23 => some (.bge c (.ofWords b))
  | 0, 0x24 => some (.bltu c (.ofWords b))
  | 0, 0x25 => some (.bgeu c (.ofWords b))
  | 0, 0x26 => some (.jmp c (.ofWords b))
  | 1, 0x00 => some (.mma c (.ofWords b))
  | 1, 0x01 => some (.cmma c (.ofWords b))
  | 1, 0x02 => some (.mmfExp c (.ofWords b x))
  | 1, 0x03 => some (.mmfRow c (.ofWords b x))
  | 2, 0x00 => some (.vadd c (.ofWords b x))
  | 2, 0x01 => some (.vsub c (.ofWords b x))
  | 2, 0x02 => some (.vmul c (.ofWords b x))
  | 2, 0x03 => some (.vfma c (.ofWords b x))
  | 2, 0x04 => some (.vmin c (.ofWords b x))
  | 2, 0x05 => some (.vmax c (.ofWords b x))
  | 2, 0x06 => some (.vminnum c (.ofWords b x))
  | 2, 0x07 => some (.vmaxnum c (.ofWords b x))
  | 2, 0x08 => some (.vcmp c (.ofWords b x))
  | 2, 0x09 => some (.vsel c (.ofWords b x))
  | 2, 0x0A => some (.vexp2 c (.ofWords b x))
  | 2, 0x0B => some (.vlog2 c (.ofWords b x))
  | 2, 0x0C => some (.vrcp c (.ofWords b x))
  | 2, 0x0D => some (.vsqrt c (.ofWords b x))
  | 2, 0x0E => some (.vrsqrt c (.ofWords b x))
  | 2, 0x0F => some (.vdiv c (.ofWords b x))
  | 2, 0x10 => some (.cvt c (.ofWords b x))
  | 2, 0x11 => some (.vld c (.ofWords b x))
  | 2, 0x12 => some (.vst c (.ofWords b x))
  | 2, 0x13 => some (.vbcast c (.ofWords b x))
  | 2, 0x20 => some (.chainLd c (.ofWords b))
  | 2, 0x21 => some (.epi c (.ofWords b x))
  | 2, 0x22 => some (.kva c (.ofWords b x))
  | 3, 0x00 => some (.mov c (.ofWords b))
  | 3, 0x01 => some (.movSig c (.ofWords b))
  | 3, 0x02 => some (.movS c (.ofWords b))
  | 3, 0x03 => some (.movG c (.ofWords b))
  | 3, 0x08 =>
    match (b.extractLsb' 49 2).toNat with
    | 0 => some (.atomAdd c (.ofWords b))
    | 1 => some (.atomFetchAdd c (.ofWords b))
    | 2 => some (.atomSwap c (.ofWords b))
    | _ => some (.atomCas c (.ofWords b))
  | 3, 0x10 => some (.scatter c (.ofWords b))
  | 3, 0x11 => some (.pageTrunc c (.ofWords b))
  | 4, 0x00 => some (.attn c (.ofWords b x))
  | 4, 0x01 => some (.attnW c (.ofWords b x))
  | 4, 0x02 => some (.attnMrg c (.ofWords b x))
  | 5, 0x00 => some (.colRs c (.ofWords b))
  | 5, 0x01 => some (.colAr c (.ofWords b))
  | 5, 0x02 => some (.colAg c (.ofWords b))
  | 5, 0x03 => some (.colA2a c (.ofWords b))
  | 6, 0x00 => some (.fence c (.ofWords b))
  | 6, 0x01 => some (.wait c (.ofWords b))
  | 6, 0x02 => some (.waitI c (.ofWords b))
  | 6, 0x03 => some (.signal c (.ofWords b))
  | _, _ => none

end Sys2Proof
end

