-- ==== Sys2Proof/Config.lean ====
section
/-! DEFINITION. What the spec leaves open or takes from outside standards, as constants without a body: nothing in
Lean can compute them, so a claim holds whatever they are (log entries 2 and 5). -/
namespace Sys2Proof.Config

/-- The n-th free value: a value that the spec calls undefined or leaves unstated (log entry 2). -/
opaque freeWord : Nat → BitVec 64

/-- SHA-512 (R352, R427), a function of an outside standard. -/
opaque sha512 : List Byte → BitVec 512

/-- ECDSA P-521 with SHA-512: whether a signature of a message holds under a public key (R335, R427). -/
opaque ecdsaVerify : List Byte → List Byte → List Byte → Bool

/-- ECDSA P-521 signature of a message under a private key, r then s (R359). -/
opaque ecdsaSign : List Byte → List Byte → List Byte

/-- The P-521 public key of a private key. -/
opaque ecdsaPublic : List Byte → List Byte

/-- HKDF with SHA-512: key material, salt, info and length (R352, R356). -/
opaque hkdf : List Byte → List Byte → List Byte → Nat → List Byte

/-- AES-256-XTS encryption and decryption of a 64-byte unit at a tweak, for ward keys (R245, R251). -/
opaque xtsEncrypt : BitVec 512 → Nat → List Byte → List Byte
opaque xtsDecrypt : BitVec 512 → Nat → List Byte → List Byte

/-- The n-th output of the security processor's random generator (R340). -/
opaque random : Nat → BitVec 512

/-- The bytes, by offset, that the n-th failed program or erase leaves in flash (R413, R420; log entry 2). -/
opaque flashDamage : Nat → List (Nat × BitVec 8)

/-- The 64-byte units of a stack's device region that are in use (R233, R237). -/
opaque deviceUsed : Nat → Nat

/-- SHA-512 of the root key in the boot ROM (R353). -/
opaque rootHash : BitVec 512

/-- The stored check of the identity key, out of the identity region's bytes by offset: the region's layout is not
given (R351). -/
opaque identityCheck : List (Nat × BitVec 8) → BitVec 512

/-- The grade that the device certificate in the identity region carries: false UBZ-NP4-192-LQ, true UBZ-NP4-176-LQ
(R431). -/
opaque certGrade : List (Nat × BitVec 8) → Bool

/-- Whether a public key is a point of the P-521 curve (Table 14.1). -/
opaque validPoint : List (BitVec 8) → Bool

/-- Whether an SRAM word with this flip mask (three or more flips) is corrected, detected or passed (R229). -/
opaque secdedMany : Nat → Nat

/-- The two check symbols over the 62 data symbols of a flit's half: the field polynomial of R260 is not given. -/
opaque fecCheck : List Byte → BitVec 32

/-- What the decoder of R260 makes of two or more wrong symbols in one half: the symbol (0 to 63) that it takes for the
wrong one, with the bits that it turns over; none where it finds nothing to correct. -/
opaque fecMany : List (Nat × BitVec 16) → Option (Nat × BitVec 16)

/-- Byte i of the fixed answer to an I3C CCC (R451 names no values): 0 GETPID, 1 GETBCR, 2 GETDCR, 3 GETMXDS. -/
opaque i3cByte : Nat → Nat → BitVec 8

/-- Ubzedor's JEP106 code in IDCODE (R468). -/
opaque jepCode : BitVec 11

/-- The correctly rounded significand where the model's precision does not decide (never met in practice). -/
opaque undecided : Nat → Nat

end Sys2Proof.Config
end

