-- ==== Sys2Proof/Machine/Num.lean ====
section
/-! DEFINITION. Number formats and arithmetic (03_number_formats.md): storage formats, the common operand form,
exact products, the group and accumulator windows, and the rounding at the end of a chain. -/
namespace Sys2Proof.Machine

/-- Table 3.1: the storage formats; INT32 is held only in registers. -/
inductive Fmt where
  | int4 | int8 | fp16 | bf16 | fp32 | int32
deriving DecidableEq, Repr

/-- Width in bits (Table 3.1). -/
def Fmt.bits : Fmt → Nat
  | .int4 => 4 | .int8 => 8 | .fp16 => 16 | .bf16 => 16 | .fp32 => 32 | .int32 => 32

/-- Whether the format is an integer format. -/
def Fmt.isInt : Fmt → Bool
  | .int4 => true | .int8 => true | .int32 => true | .fp16 => false | .bf16 => false | .fp32 => false

/-- Significand bits t of R76, the leading bit counted. -/
def Fmt.t : Fmt → Nat
  | .fp16 => 11 | .bf16 => 8 | .fp32 => 24 | .int4 => 0 | .int8 => 0 | .int32 => 0

/-- emax of R76. -/
def Fmt.emax : Fmt → Int
  | .fp16 => 15 | .bf16 => 127 | .fp32 => 127 | .int4 => 0 | .int8 => 0 | .int32 => 0

/-- Exponent of the smallest normal (Table 3.1). -/
def Fmt.emin : Fmt → Int
  | .fp16 => -14 | .bf16 => -126 | .fp32 => -126 | .int4 => 0 | .int8 => 0 | .int32 => 0

/-- The canonical quiet NaN (Table 3.1, R81). -/
def Fmt.nan : Fmt → Nat
  | .fp16 => 0x7E00 | .bf16 => 0x7FC0 | .fp32 => 0x7FC00000 | .int4 => 0 | .int8 => 0 | .int32 => 0

/-- Plus infinity. -/
def Fmt.inf : Fmt → Nat
  | .fp16 => 0x7C00 | .bf16 => 0x7F80 | .fp32 => 0x7F800000 | .int4 => 0 | .int8 => 0 | .int32 => 0

/-- The largest finite code. -/
def Fmt.maxFin (f : Fmt) : Nat := f.inf - 1

/-- Sign bit as a number. -/
def Fmt.signBit (f : Fmt) : Nat := 2 ^ (f.bits - 1)

/-- The FMT encoding of Table 2.7: 0 to 4; 5 to 15 reserved. -/
def Fmt.ofCode : Nat → Option Fmt
  | 0 => some .int4 | 1 => some .int8 | 2 => some .fp16 | 3 => some .bf16 | 4 => some .fp32 | _ => none

/-- The SRC and DST encoding of Table 12.11. -/
def Fmt.ofCvt : Nat → Option Fmt
  | 0 => some .int4 | 1 => some .int8 | 2 => some .fp16 | 3 => some .bf16 | 4 => some .fp32 | 5 => some .int32
  | _ => none

/-- Table 3.8: the arithmetic flags of the tile status word. -/
def flInvalid : Nat := 1
def flDivzero : Nat := 2
def flOverflow : Nat := 4
def flUnderflow : Nat := 8

/-- The lowest flag of a set (R89), 0 for none. -/
def lowestFlag (f : Nat) : Nat :=
  if f.testBit 0 then 1 else if f.testBit 1 then 2 else if f.testBit 2 then 4 else if f.testBit 3 then 8 else 0

/-- Classes of an operand. -/
inductive Cls where
  | zero | fin | inf | qnan | snan
deriving DecidableEq, Repr

/-- An operand as an exact value: for class fin it is (-1)^neg x sig x 2^ex with sig above 0. -/
structure Num where
  cls : Cls := .zero
  neg : Bool := false
  sig : Nat := 0
  ex : Int := 0
deriving DecidableEq, Repr

/-- An exact integer as an operand; 0 is +0. -/
def Num.ofInt (x : Int) : Num :=
  if x = 0 then {} else { cls := .fin, neg := decide (x < 0), sig := x.natAbs, ex := 0 }

/-- A float code of a format as an operand (R65, R66). -/
def Num.ofFloat (f : Fmt) (x : Nat) : Num :=
  let frac := x % 2 ^ (f.t - 1)
  let expo := (x / 2 ^ (f.t - 1)) % 2 ^ (f.bits - f.t)
  let neg := x.testBit (f.bits - 1)
  if expo = 2 ^ (f.bits - f.t) - 1 then
    if frac = 0 then { cls := .inf, neg := neg }
    else if frac.testBit (f.t - 2) then { cls := .qnan } else { cls := .snan }
  else if expo = 0 then
    if frac = 0 then { cls := .zero, neg := neg }
    else { cls := .fin, neg := neg, sig := frac, ex := f.emin - (f.t - 1 : Nat) }
  else { cls := .fin, neg := neg, sig := frac + 2 ^ (f.t - 1),
         ex := f.emin - (f.t - 1 : Nat) + (expo - 1 : Nat) }

/-- Decoding of a storage code (R65, R66). -/
def Num.decode (f : Fmt) (x : Nat) : Num :=
  match f with
  | .int4 => Num.ofInt (signed 4 x)
  | .int8 => Num.ofInt (signed 8 x)
  | .int32 => Num.ofInt (signed 32 x)
  | .fp16 => Num.ofFloat .fp16 x
  | .bf16 => Num.ofFloat .bf16 x
  | .fp32 => Num.ofFloat .fp32 x

/-- A magnitude in floor form: n x 2^k is at most the magnitude, which is below (n + 1) x 2^k, and sticky says
whether it differs from n x 2^k. -/
structure Mag where
  n : Nat := 0
  k : Int := 0
  sticky : Bool := false
deriving DecidableEq, Repr

/-- floor(log2) of a magnitude with n above 0. -/
def Mag.log2 (m : Mag) : Int := (m.n.log2 : Int) + m.k

/-- The floor of m / 2^q and whether anything is left over. -/
def Mag.floorAt (m : Mag) (q : Int) : Nat × Bool :=
  if m.k ≥ q then (m.n <<< (m.k - q).toNat, m.sticky)
  else
    let s := (q - m.k).toNat
    (m.n >>> s, m.sticky || decide (m.n % 2 ^ s ≠ 0))

/-- Table 3.4: RND. -/
inductive Rnd where
  | rne | rtz | sr
deriving DecidableEq, Repr

/-- RND 3 is reserved (Table 3.4). -/
def Rnd.ofCode : Nat → Option Rnd
  | 0 => some .rne | 1 => some .rtz | 2 => some .sr | _ => none

/-- The number of random bits that SRB selects: 0 selects 16 (Table 3.4). -/
def srbBits (srb : Nat) : Nat := if srb = 0 then 16 else srb

/-- A rounding: the mode, the random bits it takes and the draw (R75, R78). -/
structure Rounding where
  mode : Rnd := .rne
  srb : Nat := 16
  draw : Nat := 0
deriving DecidableEq, Repr

/-- The magnitude rounded to a multiple of 2^q: the multiple, and whether it is inexact (R76 to R78). -/
def roundAt (r : Rounding) (m : Mag) (q : Int) : Nat × Bool :=
  let (n, ix) := m.floorAt q
  match r.mode with
  | .rtz => (n, ix)
  | .rne =>
    let (h, hx) := m.floorAt (q - 1)
    if h % 2 = 0 then (n, ix)
    else if hx then (n + 1, ix)
    else if n % 2 = 0 then (n, ix) else (n + 1, ix)
  | .sr =>
    let (f, _) := m.floorAt (q - (r.srb : Int))
    if f % 2 ^ r.srb + r.draw ≥ 2 ^ r.srb then (n + 1, ix) else (n, ix)

/-- The final rounding to a float format (R75 to R78): the code and the flags. -/
def roundFloat (f : Fmt) (r : Rounding) (neg : Bool) (m : Mag) : Nat × Nat :=
  let sgn := if neg then f.signBit else 0
  if m.n = 0 ∧ m.sticky = false then (sgn, 0) else
  let e := max m.log2 f.emin
  let q := e - (f.t - 1 : Nat)
  let (n, ix) := roundAt r m q
  let bump : Bool := decide (n ≥ 2 ^ f.t)
  if e + (if bump then 1 else 0) > f.emax then
    (sgn + (if r.mode = .rtz then f.maxFin else f.inf), flOverflow)
  else
    (sgn + (n + (e - f.emin).toNat * 2 ^ (f.t - 1)),
     if m.log2 < f.emin ∧ ix = true then flUnderflow else 0)

/-- Rounding of a magnitude to an integer (R131, Table 3.7: q = 1 in R78). -/
def roundInt (r : Rounding) (neg : Bool) (m : Mag) : Int :=
  let n := (roundAt r m 0).1
  if neg then -(n : Int) else n

/-- Limits of an integer format. -/
def Fmt.maxInt (f : Fmt) : Int := 2 ^ (f.bits - 1) - 1
def Fmt.minInt (f : Fmt) : Int := -(2 ^ (f.bits - 1))

/-- Narrowing of an integer to an integer format (R70, R131, the INT32 and INT8 rows of Table 3.7). -/
def narrowInt (f : Fmt) (sat : Bool) (x : Int) : Nat × Nat :=
  if f.minInt ≤ x ∧ x ≤ f.maxInt then (unsignedOf f.bits x, 0)
  else if sat then (unsignedOf f.bits (if x < 0 then f.minInt else f.maxInt), flOverflow)
  else (unsignedOf f.bits x, flOverflow)

/-- Table 3.2: a COF code: sign, exponent with bias 511, significand with explicit leading bit. -/
structure Cof where
  s : Bool := false
  e : Nat := 0
  m : Nat := 0
deriving DecidableEq, Repr

/-- The one-piece form of an operand (R67, R68): significand rounded to 11 bits by RNE, exact where it fits. -/
def Num.toCofNum (x : Num) : Num :=
  match x.cls with
  | .fin =>
    let q := (x.sig.log2 : Int) - 10
    if q ≤ 0 then x
    else { x with sig := (roundAt {} ⟨x.sig, 0, false⟩ q).1, ex := x.ex + q }
  | _ => x

/-- The COF code of an operand whose significand has at most 11 bits (Table 3.2). -/
def Num.cof (x : Num) : Cof :=
  match x.cls with
  | .zero => ⟨x.neg, 0, 0⟩
  | .inf => ⟨x.neg, 1023, 0⟩
  | .qnan => ⟨false, 1023, 0x200⟩
  | .snan => ⟨false, 1023, 1⟩
  | .fin =>
    let l := x.sig.log2
    ⟨x.neg, ((l : Int) + x.ex + 511).toNat, if l ≤ 10 then x.sig <<< (10 - l) else x.sig >>> (l - 10)⟩

/-- The operand that a COF code stands for. -/
def Cof.num (c : Cof) : Num :=
  if c.e = 0 then { cls := .zero, neg := c.s }
  else if c.e = 1023 then
    if c.m = 0 then { cls := .inf, neg := c.s }
    else if c.m.testBit 9 then { cls := .qnan } else { cls := .snan }
  else { cls := .fin, neg := c.s, sig := c.m, ex := (c.e : Int) - 511 - 10 }

/-- RNE_to_COF (R472): the operand and the flags. -/
def rneToCof (x : Num) : Num × Nat :=
  match x.cls with
  | .fin =>
    let y := x.toCofNum
    let e := (y.sig.log2 : Int) + y.ex
    if e ≥ 512 then ({ cls := .inf, neg := x.neg }, flOverflow)
    else if e < -510 then ({ cls := .zero, neg := x.neg }, 0)
    else (y, 0)
  | .snan => ({ cls := .qnan }, 0)
  | _ => (x, 0)

/-- The pieces of an operand in a split form (R85, Table 3.6): hi, mid and lo; two-piece leaves mid unused. -/
def Num.pieces (split : Nat) (x : Num) : Num × Num × Num :=
  let z : Num := { neg := x.neg }
  match x.cls with
  | .fin =>
    let l := x.sig.log2
    if split = 0 ∨ l ≤ 10 then (x.toCofNum, z, z) else
    let sh := l - 10
    let hi : Num := { x with sig := x.sig >>> sh, ex := x.ex + sh }
    let rest := x.sig % 2 ^ sh
    if split = 1 then
      let lo : Num := if rest = 0 then z else ({ x with sig := rest } : Num).toCofNum
      (hi, z, lo)
    else
      let sh2 := sh - 11
      let mid : Num := if rest >>> sh2 = 0 then z else { x with sig := rest >>> sh2, ex := x.ex + sh2 }
      let lo : Num := if rest % 2 ^ sh2 = 0 then z else { x with sig := rest % 2 ^ sh2 }
      (hi, mid, lo)
  | _ => (x, z, z)

/-- One product of a group, or the absence of one. -/
structure Prod where
  cls : Cls := .zero
  neg : Bool := false
  sig : Nat := 0
  ex : Int := 0
  flags : Nat := 0
  term : Bool := true
deriving DecidableEq, Repr

/-- The exact product of two operands (R69, Table 3.3). -/
def Num.mul (a b : Num) : Prod :=
  let neg := a.neg ^^ b.neg
  if a.cls = .snan ∨ b.cls = .snan then { cls := .qnan, flags := flInvalid }
  else if a.cls = .qnan ∨ b.cls = .qnan then { cls := .qnan }
  else if a.cls = .inf ∨ b.cls = .inf then
    if a.cls = .zero ∨ b.cls = .zero then { cls := .qnan, flags := flInvalid } else { cls := .inf, neg := neg }
  else if a.cls = .zero ∨ b.cls = .zero then { cls := .zero, neg := neg }
  else { cls := .fin, neg := neg, sig := a.sig * b.sig, ex := a.ex + b.ex }

/-- A product outside the hi.hi pass: no term where a factor is a zero piece (R85). -/
def Num.mulPiece (hihi : Bool) (a b : Num) : Prod :=
  if hihi then a.mul b
  else if a.cls = .zero ∨ b.cls = .zero then { term := false }
  else a.mul b

/-- The exact product negated (R86). -/
def Prod.negate (p : Prod) : Prod := { p with neg := !p.neg }

/-- A signed dyadic number m x 2^e. -/
structure Dy where
  m : Int := 0
  e : Int := 0
deriving DecidableEq, Repr

/-- Exact sum of two dyadic numbers. -/
def Dy.add (a b : Dy) : Dy :=
  if a.m = 0 then b else if b.m = 0 then a
  else if a.e ≤ b.e then ⟨a.m + b.m * 2 ^ (b.e - a.e).toNat, a.e⟩
  else ⟨a.m * 2 ^ (a.e - b.e).toNat + b.m, b.e⟩

/-- Exact product. -/
def Dy.mul (a b : Dy) : Dy := ⟨a.m * b.m, a.e + b.e⟩

/-- floor(log2 |x|) of a nonzero dyadic number. -/
def Dy.log2 (a : Dy) : Int := (a.m.natAbs.log2 : Int) + a.e

/-- a truncated toward minus infinity to a multiple of 2^q (R71, R72). -/
def Dy.truncAt (a : Dy) (q : Int) : Dy :=
  if a.e ≥ q then a else ⟨a.m / 2 ^ (q - a.e).toNat, q⟩

/-- Comparison: a is below b. -/
def Dy.lt (a b : Dy) : Bool := decide ((a.add ⟨-b.m, b.e⟩).m < 0)

/-- What zero terms have reached an accumulator (R77): none, only -0, or any other. -/
inductive Terms where
  | none | negZero | other
deriving DecidableEq, Repr

/-- Two runs of terms together. -/
def Terms.join : Terms → Terms → Terms
  | .none, t => t
  | t, .none => t
  | .negZero, .negZero => .negZero
  | _, _ => .other

/-- Classes of an accumulator (R74, Table 5.1). -/
inductive WCls where
  | zero | fin | inf | nan
deriving DecidableEq, Repr

/-- A wide value (R120, Table 5.1): for class fin it is sig x 2^(ex - 78) with 2^78 <= |sig| < 2^79; neg is the
sign of a zero or an infinity. -/
structure Wide where
  cls : WCls := .zero
  neg : Bool := false
  sig : Int := 0
  ex : Int := 0
  ovr : Bool := false
  unr : Bool := false
deriving DecidableEq, Repr

/-- The wide value of a nonzero dyadic number, truncated toward minus infinity to a multiple of 2^(E - 78)
(R72, R128), without range marks. -/
def Wide.ofDy (a : Dy) : Wide :=
  if a.m = 0 then {} else
  let t := a.truncAt (a.log2 - 78)
  let e := t.log2
  { cls := .fin, neg := decide (t.m < 0), ex := e,
    sig := if t.e ≥ e - 78 then t.m * 2 ^ (t.e - (e - 78)).toNat else t.m / 2 ^ (e - 78 - t.e).toNat }

/-- The dyadic number of a finite or zero wide value. -/
def Wide.dy (w : Wide) : Dy := if w.cls = .fin then ⟨w.sig, w.ex - 78⟩ else {}

/-- The magnitude of a finite or zero wide value. -/
def Wide.mag (w : Wide) : Mag := if w.cls = .fin then ⟨w.sig.natAbs, w.ex - 78, false⟩ else {}

/-- Sign of a wide value. -/
def Wide.isNeg (w : Wide) : Bool := if w.cls = .fin then decide (w.sig < 0) else w.neg

/-- The exact wide value of an operand; signalling state is dropped (R127). -/
def Num.toWide (x : Num) : Wide :=
  match x.cls with
  | .zero => { cls := .zero, neg := x.neg }
  | .inf => { cls := .inf, neg := x.neg }
  | .qnan => { cls := .nan }
  | .snan => { cls := .nan }
  | .fin => Wide.ofDy ⟨if x.neg then -(x.sig : Int) else x.sig, x.ex⟩

/-- A wide value as an operand of RNE_to_COF (R472). -/
def Wide.toNum (w : Wide) : Num :=
  match w.cls with
  | .zero => { cls := .zero, neg := w.neg }
  | .inf => { cls := .inf, neg := w.neg }
  | .nan => { cls := .qnan }
  | .fin => { cls := .fin, neg := w.isNeg, sig := w.sig.natAbs, ex := w.ex - 78 }

/-- A wide value as a store holds it: one below 2^-2048 is a zero of its own sign with UNR (R128). -/
def Wide.stored (w : Wide) : Wide :=
  if w.cls = .fin ∧ w.ex < -2048 then { cls := .zero, neg := w.isNeg, ovr := w.ovr, unr := true } else w

/-- The 12 bytes of a wide value (Table 5.1). -/
def Wide.encode (w : Wide) : Nat :=
  let w := w.stored
  let cls := match w.cls with | .zero => 0 | .fin => 1 | .inf => 2 | .nan => 3
  let sg := if w.neg then 2 ^ 79 else 0
  let body := match w.cls with
    | .nan => 0
    | .zero => sg
    | .inf => sg
    | .fin => unsignedOf 12 w.ex * 2 ^ 80 + unsignedOf 80 w.sig
  cls * 2 ^ 94 + (if w.ovr then 2 ^ 93 else 0) + (if w.unr then 2 ^ 92 else 0) + body

/-- The wide value that 12 bytes spell (Table 5.1). A finite code whose significand is not normalised stands for
its value. -/
def Wide.decode (x : Nat) : Wide :=
  let ovr := x.testBit 93
  let unr := x.testBit 92
  match bits x 95 94 with
  | 0 => { cls := .zero, neg := x.testBit 79, ovr := ovr, unr := unr }
  | 1 => { Wide.ofDy ⟨signed 80 x, signed 12 (bits x 91 80) - 78⟩ with ovr := ovr, unr := unr }
  | 2 => { cls := .inf, neg := x.testBit 79, ovr := ovr, unr := unr }
  | _ => { cls := .nan, ovr := ovr, unr := unr }

/-- The sum of a group of products (R71, R74): its class, the exact sum of the truncated products, the flags and
the terms. -/
structure GroupSum where
  nan : Bool := false
  pinf : Bool := false
  ninf : Bool := false
  sum : Dy := {}
  flags : Nat := 0
  terms : Terms := .none
deriving DecidableEq, Repr

/-- Terms of one product (R77). -/
def Prod.terms (p : Prod) : Terms :=
  if p.term = false then .none else if p.cls = .zero ∧ p.neg = true then .negZero else .other

/-- floor(log2 |p|) of a product. -/
def Prod.log2 (p : Prod) : Int := (p.sig.log2 : Int) + p.ex

/-- The exponent E of a group: that of the largest finite product, none where no finite nonzero product is there. -/
def groupExp (ps : List Prod) : Option Int :=
  ps.foldl (fun a p =>
    if p.cls = .fin then (match a with | none => some p.log2 | some e => some (max e p.log2)) else a) none

/-- Products summed exactly after a truncation, with the classes of Table 3.3. -/
def sumBy (trunc : Dy → Dy) (ps : List Prod) : GroupSum :=
  let g := ps.foldl (fun (a : GroupSum) p =>
    { nan := a.nan || decide (p.cls = .qnan) || decide (p.cls = .snan)
      pinf := a.pinf || (decide (p.cls = .inf) && !p.neg)
      ninf := a.ninf || (decide (p.cls = .inf) && p.neg)
      sum := if p.cls = .fin then a.sum.add (trunc ⟨if p.neg then -(p.sig : Int) else p.sig, p.ex⟩) else a.sum
      flags := a.flags ||| p.flags
      terms := a.terms.join p.terms }) {}
  if g.pinf && g.ninf then { g with nan := true, flags := g.flags ||| flInvalid } else g

/-- R71: the products truncated to multiples of 2^(E - 62) and summed exactly. -/
def groupSum (ps : List Prod) : GroupSum :=
  let e := (groupExp ps).getD 0
  sumBy (fun d => d.truncAt (e - 62)) ps

/-- The exact sum of terms, as a vector instruction forms it (R316). -/
def exactSum (ps : List Prod) : GroupSum := sumBy (fun d => d) ps

/-- An operand as a term of a sum. -/
def Num.term (x : Num) : Prod :=
  { cls := if x.cls = .snan then .qnan else x.cls, neg := x.neg, sig := x.sig, ex := x.ex,
    flags := if x.cls = .snan then flInvalid else 0 }

/-- An operand negated. -/
def Num.negate (x : Num) : Num := { x with neg := !x.neg }

/-- The class and value after a group sum or another wide value joins an accumulator (R72, R74), with its flags. -/
def Wide.addGroup (w : Wide) (g : GroupSum) : Wide × Nat :=
  let wp := decide (w.cls = .inf) && !w.neg
  let wn := decide (w.cls = .inf) && w.neg
  let clash := (wp && g.ninf) || (wn && g.pinf)
  let fl := g.flags ||| (if clash then flInvalid else 0)
  if w.cls = .nan ∨ g.nan ∨ clash then ({ cls := .nan, ovr := w.ovr, unr := w.unr }, fl)
  else if wp || g.pinf then ({ cls := .inf, neg := false, ovr := w.ovr, unr := w.unr }, fl)
  else if wn || g.ninf then ({ cls := .inf, neg := true, ovr := w.ovr, unr := w.unr }, fl)
  else ({ Wide.ofDy (w.dy.add g.sum) with ovr := w.ovr, unr := w.unr }, fl)

/-- A wide value as a group of its own. -/
def Wide.asGroup (w : Wide) : GroupSum :=
  { nan := decide (w.cls = .nan), pinf := decide (w.cls = .inf) && !w.neg, ninf := decide (w.cls = .inf) && w.neg,
    sum := w.dy, flags := 0,
    terms := match w.cls with | .zero => if w.neg then .negZero else .other | _ => .other }

/-- An accumulator (R70, R72, R74, R77, R89): value, terms, whether every addition was on the integer path, the
recorded SAT and the K positions accumulated since it was cleared. -/
structure Acc where
  w : Wide := {}
  terms : Terms := .none
  int : Bool := true
  sat : Bool := true
  kpos : Nat := 0
deriving DecidableEq, Repr

/-- The accumulator's value with the sign that R77 gives an exact zero. -/
def Acc.value (a : Acc) : Wide :=
  if a.w.cls = .zero then { a.w with neg := decide (a.terms = .negZero) } else a.w

/-- One group added into an accumulator on the float path (R72). -/
def Acc.addGroup (a : Acc) (g : GroupSum) (sat : Bool) : Acc × Nat :=
  let (w, fl) := a.w.addGroup g
  ({ a with w := w, terms := a.terms.join g.terms, int := false, sat := sat }, fl)

/-- One exact integer sum added into an accumulator (R70). -/
def Acc.addInt (a : Acc) (x : Int) (sat : Bool) : Acc :=
  { a with w := (a.w.addGroup { sum := ⟨x, 0⟩ }).1, terms := .other, sat := sat }

/-- Two partials of one output combined: one accumulator addition (R36, R73). -/
def Acc.combine (a b : Acc) : Acc × Nat :=
  let (w, fl) := a.w.addGroup { b.w.asGroup with terms := b.terms }
  ({ a with w := w, terms := a.terms.join b.terms, int := a.int && b.int, sat := b.sat }, fl)

/-- A wide value rounded to an output format (R75 to R77, R131): the code and the flags. -/
def roundWide (f : Fmt) (r : Rounding) (sat : Bool) (w : Wide) : Nat × Nat :=
  let marks := (if w.ovr then flOverflow else 0) ||| (if w.unr then flUnderflow else 0)
  if f.isInt then
    match w.cls with
    | .nan => (0, flInvalid ||| marks)
    | .inf => (unsignedOf f.bits (if w.neg then f.minInt else f.maxInt), flInvalid ||| marks)
    | .zero => (0, marks)
    | .fin => let (c, fl) := narrowInt f sat (roundInt r w.isNeg w.mag); (c, fl ||| marks)
  else
    match w.cls with
    | .nan => (f.nan, marks)
    | .inf => ((if w.neg then f.signBit else 0) + f.inf, marks)
    | .zero => ((if w.neg then f.signBit else 0), marks)
    | .fin => let (c, fl) := roundFloat f r w.isNeg w.mag; (c, fl ||| marks)

/-- An operand rounded to a float format by a conversion (R87), NaN as R81 gives it. -/
def roundNum (f : Fmt) (r : Rounding) (x : Num) : Nat × Nat :=
  match x.cls with
  | .snan => (f.nan, flInvalid)
  | .qnan => (f.nan, 0)
  | .inf => ((if x.neg then f.signBit else 0) + f.inf, 0)
  | .zero => ((if x.neg then f.signBit else 0), 0)
  | .fin => roundFloat f r x.neg ⟨x.sig, x.ex, false⟩

/-- Table 3.7: whether CVT lists the pair. -/
def cvtDefined (src dst : Fmt) : Bool :=
  match src, dst with
  | .fp16, .fp32 => true | .bf16, .fp32 => true
  | .int4, .fp16 => true | .int4, .bf16 => true | .int4, .fp32 => true | .int4, .int32 => true
  | .int4, .int8 => true
  | .int8, .fp16 => true | .int8, .bf16 => true | .int8, .fp32 => true | .int8, .int32 => true
  | .int8, .int4 => true
  | .fp32, .fp16 => true | .fp32, .bf16 => true
  | .fp16, .bf16 => true | .bf16, .fp16 => true
  | .int32, .fp32 => true | .int32, .fp16 => true | .int32, .bf16 => true
  | .fp16, .int32 => true | .fp16, .int8 => true | .fp16, .int4 => true
  | .bf16, .int32 => true | .bf16, .int8 => true | .bf16, .int4 => true
  | .fp32, .int32 => true | .fp32, .int8 => true | .fp32, .int4 => true
  | .int32, .int8 => true | .int32, .int4 => true
  | _, _ => false

/-- Table 3.7: whether the conversion rounds, and so draws in SR mode. -/
def cvtRounds (src dst : Fmt) : Bool :=
  match src, dst with
  | .fp32, .fp16 => true | .fp32, .bf16 => true | .fp16, .bf16 => true | .bf16, .fp16 => true
  | .int32, .fp32 => true | .int32, .fp16 => true | .int32, .bf16 => true
  | .fp16, .int32 => true | .fp16, .int8 => true | .fp16, .int4 => true
  | .bf16, .int32 => true | .bf16, .int8 => true | .bf16, .int4 => true
  | .fp32, .int32 => true | .fp32, .int8 => true | .fp32, .int4 => true
  | _, _ => false

/-- CVT of one code (R87, Table 3.7). -/
def cvt (src dst : Fmt) (sat : Bool) (r : Rounding) (x : Nat) : Nat × Nat :=
  let v := Num.decode src x
  if dst.isInt then
    if src.isInt then narrowInt dst sat (signed src.bits x)
    else match v.cls with
      | .qnan => (0, flInvalid)
      | .snan => (0, flInvalid)
      | .inf => (unsignedOf dst.bits (if v.neg then dst.minInt else dst.maxInt), flInvalid)
      | .zero => (0, 0)
      | .fin =>
        let n := roundInt r v.neg ⟨v.sig, v.ex, false⟩
        if dst.minInt ≤ n ∧ n ≤ dst.maxInt then (unsignedOf dst.bits n, 0)
        else (unsignedOf dst.bits (if n < 0 then dst.minInt else dst.maxInt), flInvalid)
  else roundNum dst r v

/-- The dyadic number of a finite or zero operand. -/
def Num.dy (x : Num) : Dy := if x.cls = .fin then ⟨if x.neg then -(x.sig : Int) else x.sig, x.ex⟩ else {}

/-- Whether an operand is a NaN. -/
def Num.isNan (x : Num) : Bool := decide (x.cls = .qnan) || decide (x.cls = .snan)

/-- a below b, NaN excluded; +0 and -0 compare equal (R82). -/
def Num.lt (a b : Num) : Bool :=
  if a.cls = .inf then a.neg && !(decide (b.cls = .inf) && b.neg)
  else if b.cls = .inf then !b.neg
  else a.dy.lt b.dy

/-- The comparisons of R82 by CC: 0 EQ, 1 NE, 2 LT, 3 LE, 4 UN; the answer and the flags. -/
def Num.compare (cc : Nat) (a b : Num) : Bool × Nat :=
  let snan := decide (a.cls = .snan) || decide (b.cls = .snan)
  if a.isNan || b.isNan then
    (decide (cc = 1) || decide (cc = 4), if snan || decide (cc = 2) || decide (cc = 3) then flInvalid else 0)
  else (match cc with
    | 0 => !a.lt b && !b.lt a
    | 1 => a.lt b || b.lt a
    | 2 => a.lt b
    | 3 => !b.lt a
    | _ => false, 0)

/-- Whether a is chosen as the smaller: -0 below +0 (Table 3.5). -/
def Num.leMin (a b : Num) : Bool :=
  a.lt b || (!b.lt a && (decide (a.cls ≠ .zero) || a.neg || !b.neg))

/-- The minimum and maximum operations of Table 3.5: op 0 MIN, 1 MAX, 2 MINNUM, 3 MAXNUM. A signalling NaN, which only a
vector instruction meets, gives the canonical NaN in all four (R316, log entry 136). -/
def Num.minMax (op : Nat) (a b : Num) : Num × Nat :=
  let fl := if a.cls = .snan ∨ b.cls = .snan then flInvalid else 0
  if a.isNan && b.isNan || fl ≠ 0 then ({ cls := .qnan }, fl)
  else if a.isNan || b.isNan then (if op < 2 then { cls := .qnan } else if a.isNan then b else a, fl)
  else (if op % 2 = 0 then (if a.leMin b then a else b) else (if a.leMin b then b else a), fl)

end Sys2Proof.Machine
end

