-- ==== Sys2Proof/Machine/Regs.lean ====
section
/-! DEFINITION. The register map: the fields of every register table of the spec (access, reset, level), the
register index of Table 19.2 with its die windows (Table 19.1), and the unit numbering (R11, R439, R440). -/
namespace Sys2Proof.Machine

/-- Table 0.4: access types. -/
inductive Access where
  | rw | ro | wo | w1c | rwx
deriving DecidableEq, Repr

/-- The registers of Table 19.2. -/
inductive Reg where
  /-- SYS_CONTRACT -/
  | sysContract
  /-- SCH_PLAN -/
  | schPlan
  /-- SCH_HANDOVER_STAT -/
  | schHandoverStat
  /-- SYS_EXPERT_CTL -/
  | sysExpertCtl
  /-- CORE_EXC_RECORD -/
  | coreExcRecord
  /-- WRD_EXC_COUNT -/
  | wrdExcCount
  /-- ENG_STAT -/
  | engStat
  /-- KVP_WARD_CFG -/
  | kvpWardCfg
  /-- KVP_WARD_STAT -/
  | kvpWardStat
  /-- EXP_PORT_CFG -/
  | expPortCfg
  /-- EXP_PARTNER_CFG -/
  | expPartnerCfg
  /-- EXP_PARTNER_STAT -/
  | expPartnerStat
  /-- EXP_KEYWAY_LOAD -/
  | expKeywayLoad
  /-- EXP_KEYWAY_STAT -/
  | expKeywayStat
  /-- MEM_SRAM_STAT -/
  | memSramStat
  /-- HBM_ERR_STAT -/
  | hbmErrStat
  /-- HBM_SCRUB_CFG -/
  | hbmScrubCfg
  /-- HBM_PC_MAP -/
  | hbmPcMap
  /-- MEM_LEND -/
  | memLend
  /-- HNG_TORUS_CFG -/
  | hngTorusCfg
  /-- HNG_PORT_STAT -/
  | hngPortStat
  /-- HNG_RETIRE_CFG -/
  | hngRetireCfg
  /-- HNG_DRR_CFG -/
  | hngDrrCfg
  /-- HNG_TIME_STAT -/
  | hngTimeStat
  /-- COL_SLOT_STAT -/
  | colSlotStat
  /-- COL_GROUP_STAT -/
  | colGroupStat
  /-- HOST_ECN_CFG -/
  | hostEcnCfg
  /-- HOST_MGMT_STAT -/
  | hostMgmtStat
  /-- HOST_PORT_STAT -/
  | hostPortStat
  /-- WRD_POLICY -/
  | wrdPolicy
  /-- SEC_STAT -/
  | secStat
  /-- CLK_CLUSTER_STAT -/
  | clkClusterStat
  /-- CLK_CLUSTER_CFG -/
  | clkClusterCfg
  /-- PWR_CFG -/
  | pwrCfg
  /-- PWR_WEIGHT -/
  | pwrWeight
  /-- PWR_CAP -/
  | pwrCap
  /-- PWR_STAT -/
  | pwrStat
  /-- PWR_DROOP_CFG -/
  | pwrDroopCfg
  /-- PWR_THERM_CFG -/
  | pwrThermCfg
  /-- PWR_THERM_STAT -/
  | pwrThermStat
  /-- WRD_ENERGY -/
  | wrdEnergy
  /-- CLK_STEP_CFG -/
  | clkStepCfg
  /-- CLK_STEP_STAT -/
  | clkStepStat
  /-- CLK_STEP_SYNC_STAT -/
  | clkStepSyncStat
  /-- LOG_STAT -/
  | logStat
  /-- LOG_CFG -/
  | logCfg
  /-- LOG_FILTER -/
  | logFilter
  /-- AUV_SEQ -/
  | auvSeq
  /-- JRN_STAT -/
  | jrnStat
  /-- JRN_CTL -/
  | jrnCtl
  /-- JRN_CFG -/
  | jrnCfg
  /-- SYS_START_STAT -/
  | sysStartStat
  /-- SYS_CORE_MAP -/
  | sysCoreMap
  /-- SYS_RESTART -/
  | sysRestart
  /-- SYS_TIME -/
  | sysTime
  /-- SYS_TIME_RAW -/
  | sysTimeRaw
  /-- SYS_TIME_OFFSET -/
  | sysTimeOffset
  /-- MEM_CAPACITY -/
  | memCapacity
  /-- HOST_QP0_CFG -/
  | hostQp0Cfg
  /-- LOG_ENTRY -/
  | logEntry
  /-- AUV_IMAGE -/
  | auvImage
deriving DecidableEq, Repr

/-- The fields of the registers, one for each row of their tables that is not reserved. -/
inductive Fld where
  /-- SYS_CONTRACT.LEVEL_MAX, Table 2.1. -/
  | sysContract_LEVEL_MAX
  /-- SYS_CONTRACT.LEVEL_MIN, Table 2.1. -/
  | sysContract_LEVEL_MIN
  /-- SYS_CONTRACT.STEPPING, Table 2.1. -/
  | sysContract_STEPPING
  /-- SCH_PLAN.PLAN_POINT, Table 2.3. -/
  | schPlan_PLAN_POINT
  /-- SCH_HANDOVER_STAT.LATE_COUNT, Table 2.4. -/
  | schHandoverStat_LATE_COUNT
  /-- SCH_HANDOVER_STAT.LAST_LEAD_US, Table 2.4. -/
  | schHandoverStat_LAST_LEAD_US
  /-- SCH_HANDOVER_STAT.LAST_LATE_US, Table 2.4. -/
  | schHandoverStat_LAST_LATE_US
  /-- SYS_EXPERT_CTL.IGNORED_SEEN, Table 2.9. -/
  | sysExpertCtl_IGNORED_SEEN
  /-- SYS_EXPERT_CTL.EXPERT_UNLOCK, Table 2.9. -/
  | sysExpertCtl_EXPERT_UNLOCK
  /-- CORE_EXC_RECORD.VALID, Table 3.9. -/
  | coreExcRecord_VALID
  /-- CORE_EXC_RECORD.COL, Table 3.9. -/
  | coreExcRecord_COL
  /-- CORE_EXC_RECORD.KGROUP, Table 3.9. -/
  | coreExcRecord_KGROUP
  /-- CORE_EXC_RECORD.TASK_ID, Table 3.9. -/
  | coreExcRecord_TASK_ID
  /-- CORE_EXC_RECORD.TILE_IDX, Table 3.9. -/
  | coreExcRecord_TILE_IDX
  /-- CORE_EXC_RECORD.ROW, Table 3.9. -/
  | coreExcRecord_ROW
  /-- CORE_EXC_RECORD.FLAG, Table 3.9. -/
  | coreExcRecord_FLAG
  /-- WRD_EXC_COUNT.INVALID_TILES, Table 3.10. -/
  | wrdExcCount_INVALID_TILES
  /-- WRD_EXC_COUNT.DIVZERO_TILES, Table 3.10. -/
  | wrdExcCount_DIVZERO_TILES
  /-- WRD_EXC_COUNT.OVERFLOW_TILES, Table 3.10. -/
  | wrdExcCount_OVERFLOW_TILES
  /-- WRD_EXC_COUNT.UNDERFLOW_TILES, Table 3.10. -/
  | wrdExcCount_UNDERFLOW_TILES
  /-- ENG_STAT.EXCLUDED, Table 4.7. -/
  | engStat_EXCLUDED
  /-- ENG_STAT.LAST_CAUSE, Table 4.7. -/
  | engStat_LAST_CAUSE
  /-- ENG_STAT.LAST_ENG, Table 4.7. -/
  | engStat_LAST_ENG
  /-- ENG_STAT.REPLAYS, Table 4.7. -/
  | engStat_REPLAYS
  /-- KVP_WARD_CFG.POOLS, Table 7.5. -/
  | kvpWardCfg_POOLS
  /-- KVP_WARD_CFG.DROP_CLASS, Table 7.5. -/
  | kvpWardCfg_DROP_CLASS
  /-- KVP_WARD_CFG.RECOMP_EN, Table 7.5. -/
  | kvpWardCfg_RECOMP_EN
  /-- KVP_WARD_CFG.DROP_EN, Table 7.5. -/
  | kvpWardCfg_DROP_EN
  /-- KVP_WARD_STAT.DROPS, Table 7.6. -/
  | kvpWardStat_DROPS
  /-- KVP_WARD_STAT.SPILLS, Table 7.6. -/
  | kvpWardStat_SPILLS
  /-- KVP_WARD_STAT.RECOMPUTES, Table 7.6. -/
  | kvpWardStat_RECOMPUTES
  /-- KVP_WARD_STAT.ABSENT, Table 7.6. -/
  | kvpWardStat_ABSENT
  /-- EXP_PORT_CFG.SWITCHED, Table 8.1. -/
  | expPortCfg_SWITCHED
  /-- EXP_PORT_CFG.ENABLE, Table 8.1. -/
  | expPortCfg_ENABLE
  /-- EXP_PARTNER_CFG.ENABLE, Table 8.2. -/
  | expPartnerCfg_ENABLE
  /-- EXP_PARTNER_CFG.WARD, Table 8.2. -/
  | expPartnerCfg_WARD
  /-- EXP_PARTNER_CFG.PORT_MASK, Table 8.2. -/
  | expPartnerCfg_PORT_MASK
  /-- EXP_PARTNER_CFG.INBOX_PORT, Table 8.2. -/
  | expPartnerCfg_INBOX_PORT
  /-- EXP_PARTNER_CFG.INBOX_SLOT, Table 8.2. -/
  | expPartnerCfg_INBOX_SLOT
  /-- EXP_PARTNER_CFG.KEYWAY, Table 8.2. -/
  | expPartnerCfg_KEYWAY
  /-- EXP_PARTNER_CFG.QP_BASE, Table 8.2. -/
  | expPartnerCfg_QP_BASE
  /-- EXP_PARTNER_CFG.CREDIT_WAIT, Table 8.2. -/
  | expPartnerCfg_CREDIT_WAIT
  /-- EXP_PARTNER_STAT.STATE, Table 8.3. -/
  | expPartnerStat_STATE
  /-- EXP_PARTNER_STAT.CAUSE, Table 8.3. -/
  | expPartnerStat_CAUSE
  /-- EXP_PARTNER_STAT.CVT_INVALID, Table 8.3. -/
  | expPartnerStat_CVT_INVALID
  /-- EXP_PARTNER_STAT.CVT_OVERFLOW, Table 8.3. -/
  | expPartnerStat_CVT_OVERFLOW
  /-- EXP_PARTNER_STAT.CVT_UNDERFLOW, Table 8.3. -/
  | expPartnerStat_CVT_UNDERFLOW
  /-- EXP_PARTNER_STAT.BAD_GRANTS, Table 8.3. -/
  | expPartnerStat_BAD_GRANTS
  /-- EXP_PARTNER_STAT.NAK_RETRIES, Table 8.3. -/
  | expPartnerStat_NAK_RETRIES
  /-- EXP_PARTNER_STAT.BINDINGS, Table 8.3. -/
  | expPartnerStat_BINDINGS
  /-- EXP_KEYWAY_LOAD.WARD, Table 8.4. -/
  | expKeywayLoad_WARD
  /-- EXP_KEYWAY_LOAD.ADDR, Table 8.4. -/
  | expKeywayLoad_ADDR
  /-- EXP_KEYWAY_LOAD.INDEX, Table 8.4. -/
  | expKeywayLoad_INDEX
  /-- EXP_KEYWAY_STAT.ERR, Table 8.5. -/
  | expKeywayStat_ERR
  /-- MEM_SRAM_STAT.CORRECTED, Table 9.3. -/
  | memSramStat_CORRECTED
  /-- MEM_SRAM_STAT.UNCORRECTABLE, Table 9.3. -/
  | memSramStat_UNCORRECTABLE
  /-- MEM_SRAM_STAT.POISON_WRITTEN, Table 9.3. -/
  | memSramStat_POISON_WRITTEN
  /-- HBM_ERR_STAT.UE_COUNT, Table 9.6. -/
  | hbmErrStat_UE_COUNT
  /-- HBM_ERR_STAT.ADDR_COUNT, Table 9.6. -/
  | hbmErrStat_ADDR_COUNT
  /-- HBM_ERR_STAT.CE_COUNT, Table 9.6. -/
  | hbmErrStat_CE_COUNT
  /-- HBM_SCRUB_CFG.PERIOD_H, Table 9.7. -/
  | hbmScrubCfg_PERIOD_H
  /-- HBM_SCRUB_CFG.PASSES, Table 9.7. -/
  | hbmScrubCfg_PASSES
  /-- HBM_PC_MAP.DEVICE_PC, Table 9.8. -/
  | hbmPcMap_DEVICE_PC
  /-- HBM_PC_MAP.LIVE, Table 9.8. -/
  | hbmPcMap_LIVE
  /-- MEM_LEND.ENABLE, Table 9.14. -/
  | memLend_ENABLE
  /-- MEM_LEND.WRITABLE, Table 9.14. -/
  | memLend_WRITABLE
  /-- MEM_LEND.BORROWER_NODE, Table 9.14. -/
  | memLend_BORROWER_NODE
  /-- MEM_LEND.BORROWER_WARD, Table 9.14. -/
  | memLend_BORROWER_WARD
  /-- MEM_LEND.SIZE, Table 9.14. -/
  | memLend_SIZE
  /-- HNG_TORUS_CFG.VALID, Table 10.1. -/
  | hngTorusCfg_VALID
  /-- HNG_TORUS_CFG.LZ, Table 10.1. -/
  | hngTorusCfg_LZ
  /-- HNG_TORUS_CFG.LY, Table 10.1. -/
  | hngTorusCfg_LY
  /-- HNG_TORUS_CFG.LX, Table 10.1. -/
  | hngTorusCfg_LX
  /-- HNG_TORUS_CFG.NODE, Table 10.1. -/
  | hngTorusCfg_NODE
  /-- HNG_PORT_STAT.STATE, Table 10.6. -/
  | hngPortStat_STATE
  /-- HNG_PORT_STAT.CAUSE, Table 10.6. -/
  | hngPortStat_CAUSE
  /-- HNG_PORT_STAT.PEER_NODE, Table 10.6. -/
  | hngPortStat_PEER_NODE
  /-- HNG_PORT_STAT.PEER_PORT, Table 10.6. -/
  | hngPortStat_PEER_PORT
  /-- HNG_PORT_STAT.WORST_LANE, Table 10.6. -/
  | hngPortStat_WORST_LANE
  /-- HNG_PORT_STAT.LINK_DOWNS, Table 10.6. -/
  | hngPortStat_LINK_DOWNS
  /-- HNG_PORT_STAT.RETRIES, Table 10.6. -/
  | hngPortStat_RETRIES
  /-- HNG_RETIRE_CFG.LANE_LIMIT, Table 10.7. -/
  | hngRetireCfg_LANE_LIMIT
  /-- HNG_RETIRE_CFG.RETRY_LIMIT, Table 10.7. -/
  | hngRetireCfg_RETRY_LIMIT
  /-- HNG_DRR_CFG.W_REDUCE, Table 10.9. -/
  | hngDrrCfg_W_REDUCE
  /-- HNG_DRR_CFG.W_RESP, Table 10.9. -/
  | hngDrrCfg_W_RESP
  /-- HNG_DRR_CFG.W_REQ, Table 10.9. -/
  | hngDrrCfg_W_REQ
  /-- HNG_TIME_STAT.LOCKED, Table 10.10. -/
  | hngTimeStat_LOCKED
  /-- HNG_TIME_STAT.ROOT, Table 10.10. -/
  | hngTimeStat_ROOT
  /-- HNG_TIME_STAT.HOPS, Table 10.10. -/
  | hngTimeStat_HOPS
  /-- HNG_TIME_STAT.UPSTREAM, Table 10.10. -/
  | hngTimeStat_UPSTREAM
  /-- HNG_TIME_STAT.LAST_CORR, Table 10.10. -/
  | hngTimeStat_LAST_CORR
  /-- HNG_TIME_STAT.LOCK_LOSSES, Table 10.10. -/
  | hngTimeStat_LOCK_LOSSES
  /-- COL_SLOT_STAT.RESERVED_SLOTS, Table 11.3. -/
  | colSlotStat_RESERVED_SLOTS
  /-- COL_SLOT_STAT.CLAIMED, Table 11.3. -/
  | colSlotStat_CLAIMED
  /-- COL_SLOT_STAT.FREE, Table 11.3. -/
  | colSlotStat_FREE
  /-- COL_SLOT_STAT.WAITING, Table 11.3. -/
  | colSlotStat_WAITING
  /-- COL_SLOT_STAT.WAIT_EVENTS, Table 11.3. -/
  | colSlotStat_WAIT_EVENTS
  /-- COL_GROUP_STAT.ACTIVE, Table 11.4. -/
  | colGroupStat_ACTIVE
  /-- COL_GROUP_STAT.WARD, Table 11.4. -/
  | colGroupStat_WARD
  /-- COL_GROUP_STAT.OPEN_OPS, Table 11.4. -/
  | colGroupStat_OPEN_OPS
  /-- COL_GROUP_STAT.HELD_X, Table 11.4. -/
  | colGroupStat_HELD_X
  /-- COL_GROUP_STAT.HELD_Y, Table 11.4. -/
  | colGroupStat_HELD_Y
  /-- COL_GROUP_STAT.HELD_Z, Table 11.4. -/
  | colGroupStat_HELD_Z
  /-- COL_GROUP_STAT.FAULTS, Table 11.4. -/
  | colGroupStat_FAULTS
  /-- HOST_ECN_CFG.PRIO, Table 13.7. -/
  | hostEcnCfg_PRIO
  /-- HOST_ECN_CFG.ECN_EN, Table 13.7. -/
  | hostEcnCfg_ECN_EN
  /-- HOST_ECN_CFG.PERIOD_US, Table 13.7. -/
  | hostEcnCfg_PERIOD_US
  /-- HOST_ECN_CFG.STEP_GBPS, Table 13.7. -/
  | hostEcnCfg_STEP_GBPS
  /-- HOST_ECN_CFG.MIN_GBPS, Table 13.7. -/
  | hostEcnCfg_MIN_GBPS
  /-- HOST_ECN_CFG.GSHIFT, Table 13.7. -/
  | hostEcnCfg_GSHIFT
  /-- HOST_MGMT_STAT.NEXT_SEQ, Table 13.10. -/
  | hostMgmtStat_NEXT_SEQ
  /-- HOST_MGMT_STAT.REJECTED, Table 13.10. -/
  | hostMgmtStat_REJECTED
  /-- HOST_PORT_STAT.LINK, Table 13.11. -/
  | hostPortStat_LINK
  /-- HOST_PORT_STAT.LINK_DOWNS, Table 13.11. -/
  | hostPortStat_LINK_DOWNS
  /-- HOST_PORT_STAT.REJECTS, Table 13.11. -/
  | hostPortStat_REJECTS
  /-- HOST_PORT_STAT.DOORBELL_ERR, Table 13.11. -/
  | hostPortStat_DOORBELL_ERR
  /-- WRD_POLICY.FRAME_QUOTA, Table 14.2. -/
  | wrdPolicy_FRAME_QUOTA
  /-- WRD_POLICY.QP_QUOTA, Table 14.2. -/
  | wrdPolicy_QP_QUOTA
  /-- WRD_POLICY.GROUP_QUOTA, Table 14.2. -/
  | wrdPolicy_GROUP_QUOTA
  /-- WRD_POLICY.CL_MIN, Table 14.2. -/
  | wrdPolicy_CL_MIN
  /-- WRD_POLICY.CL_MAX, Table 14.2. -/
  | wrdPolicy_CL_MAX
  /-- WRD_POLICY.POWER_FRAC, Table 14.2. -/
  | wrdPolicy_POWER_FRAC
  /-- WRD_POLICY.BW_FRAC, Table 14.2. -/
  | wrdPolicy_BW_FRAC
  /-- WRD_POLICY.BW_FIXED, Table 14.2. -/
  | wrdPolicy_BW_FIXED
  /-- WRD_POLICY.ACTIVE, Table 14.2. -/
  | wrdPolicy_ACTIVE
  /-- WRD_POLICY.EXPERT_UNLOCK, Table 14.2. -/
  | wrdPolicy_EXPERT_UNLOCK
  /-- SEC_STAT.DEVICE_ID, Table 14.5. -/
  | secStat_DEVICE_ID
  /-- SEC_STAT.IDENTITY, Table 14.5. -/
  | secStat_IDENTITY
  /-- SEC_STAT.OWNER, Table 14.5. -/
  | secStat_OWNER
  /-- SEC_STAT.BOOT_SLOT, Table 14.5. -/
  | secStat_BOOT_SLOT
  /-- SEC_STAT.FALLBACK, Table 14.5. -/
  | secStat_FALLBACK
  /-- SEC_STAT.UPDATE_PENDING, Table 14.5. -/
  | secStat_UPDATE_PENDING
  /-- CLK_CLUSTER_STAT.FREQ, Table 15.1. -/
  | clkClusterStat_FREQ
  /-- CLK_CLUSTER_STAT.TARGET, Table 15.1. -/
  | clkClusterStat_TARGET
  /-- CLK_CLUSTER_STAT.DUTY, Table 15.1. -/
  | clkClusterStat_DUTY
  /-- CLK_CLUSTER_STAT.VOLT_MV, Table 15.1. -/
  | clkClusterStat_VOLT_MV
  /-- CLK_CLUSTER_STAT.LIMIT, Table 15.1. -/
  | clkClusterStat_LIMIT
  /-- CLK_CLUSTER_STAT.STRETCH, Table 15.1. -/
  | clkClusterStat_STRETCH
  /-- CLK_CLUSTER_STAT.STRETCHES, Table 15.1. -/
  | clkClusterStat_STRETCHES
  /-- CLK_CLUSTER_CFG.FMAX, Table 15.2. -/
  | clkClusterCfg_FMAX
  /-- CLK_CLUSTER_CFG.HOLD, Table 15.2. -/
  | clkClusterCfg_HOLD
  /-- PWR_CFG.WINDOW, Table 15.4. -/
  | pwrCfg_WINDOW
  /-- PWR_CFG.WEIGHT_SRC, Table 15.4. -/
  | pwrCfg_WEIGHT_SRC
  /-- PWR_CFG.COMPUTE_RESERVE_W, Table 15.4. -/
  | pwrCfg_COMPUTE_RESERVE_W
  /-- PWR_CFG.MEM_LIMIT_W, Table 15.4. -/
  | pwrCfg_MEM_LIMIT_W
  /-- PWR_WEIGHT.WEIGHT, Table 15.5. -/
  | pwrWeight_WEIGHT
  /-- PWR_CAP.WATTS, Table 15.6. -/
  | pwrCap_WATTS
  /-- PWR_STAT.EST_W, Table 15.7. -/
  | pwrStat_EST_W
  /-- PWR_STAT.COMPUTE_W, Table 15.7. -/
  | pwrStat_COMPUTE_W
  /-- PWR_STAT.LINK_W, Table 15.7. -/
  | pwrStat_LINK_W
  /-- PWR_STAT.MEM_W, Table 15.7. -/
  | pwrStat_MEM_W
  /-- PWR_STAT.FIXED_W, Table 15.7. -/
  | pwrStat_FIXED_W
  /-- PWR_STAT.THERM_ALERT, Table 15.7. -/
  | pwrStat_THERM_ALERT
  /-- PWR_STAT.CAP_UNMET, Table 15.7. -/
  | pwrStat_CAP_UNMET
  /-- PWR_STAT.HBM_LIMITED, Table 15.7. -/
  | pwrStat_HBM_LIMITED
  /-- PWR_STAT.CAL_OK, Table 15.7. -/
  | pwrStat_CAL_OK
  /-- PWR_DROOP_CFG.HOLD_CYCLES, Table 15.9. -/
  | pwrDroopCfg_HOLD_CYCLES
  /-- PWR_DROOP_CFG.THRESH_MV, Table 15.9. -/
  | pwrDroopCfg_THRESH_MV
  /-- PWR_THERM_CFG.ALERT_C, Table 15.10. -/
  | pwrThermCfg_ALERT_C
  /-- PWR_THERM_CFG.TARGET_C, Table 15.10. -/
  | pwrThermCfg_TARGET_C
  /-- PWR_THERM_STAT.HOTTEST, Table 15.11. -/
  | pwrThermStat_HOTTEST
  /-- PWR_THERM_STAT.SENSOR, Table 15.11. -/
  | pwrThermStat_SENSOR
  /-- PWR_THERM_STAT.LIMITED_WINDOWS, Table 15.11. -/
  | pwrThermStat_LIMITED_WINDOWS
  /-- WRD_ENERGY.TOTAL, Table 15.12. -/
  | wrdEnergy_TOTAL
  /-- WRD_ENERGY.LAST_STEP, Table 15.12. -/
  | wrdEnergy_LAST_STEP
  /-- WRD_ENERGY.LAST_BUDGET_W, Table 15.12. -/
  | wrdEnergy_LAST_BUDGET_W
  /-- CLK_STEP_CFG.SYNC_EN, Table 15.13. -/
  | clkStepCfg_SYNC_EN
  /-- CLK_STEP_CFG.LENGTH_US, Table 15.13. -/
  | clkStepCfg_LENGTH_US
  /-- CLK_STEP_STAT.STEP_COUNT, Table 15.14. -/
  | clkStepStat_STEP_COUNT
  /-- CLK_STEP_STAT.LAST_ADJ, Table 15.14. -/
  | clkStepStat_LAST_ADJ
  /-- CLK_STEP_SYNC_STAT.PULLS, Table 15.15. -/
  | clkStepSyncStat_PULLS
  /-- CLK_STEP_SYNC_STAT.PUSHES, Table 15.15. -/
  | clkStepSyncStat_PUSHES
  /-- CLK_STEP_SYNC_STAT.OUTSIDE, Table 15.15. -/
  | clkStepSyncStat_OUTSIDE
  /-- CLK_STEP_SYNC_STAT.COINCIDENT, Table 15.15. -/
  | clkStepSyncStat_COINCIDENT
  /-- LOG_STAT.HEAD, Table 16.6. -/
  | logStat_HEAD
  /-- LOG_STAT.LOST, Table 16.6. -/
  | logStat_LOST
  /-- LOG_STAT.FATAL, Table 16.6. -/
  | logStat_FATAL
  /-- LOG_STAT.ALERT, Table 16.6. -/
  | logStat_ALERT
  /-- LOG_CFG.CE_LIMIT, Table 16.7. -/
  | logCfg_CE_LIMIT
  /-- LOG_CFG.NOTIFY_EN, Table 16.7. -/
  | logCfg_NOTIFY_EN
  /-- LOG_CFG.ALERT_SEV, Table 16.7. -/
  | logCfg_ALERT_SEV
  /-- LOG_FILTER.EN, Table 16.8. -/
  | logFilter_EN
  /-- LOG_FILTER.FILTER_WARD, Table 16.8. -/
  | logFilter_FILTER_WARD
  /-- AUV_SEQ.SEQ, Table 17.5. -/
  | auvSeq_SEQ
  /-- JRN_STAT.EPOCH, Table 17.9. -/
  | jrnStat_EPOCH
  /-- JRN_STAT.FILL_KIB, Table 17.9. -/
  | jrnStat_FILL_KIB
  /-- JRN_STAT.RECOVERY, Table 17.9. -/
  | jrnStat_RECOVERY
  /-- JRN_STAT.REGION, Table 17.9. -/
  | jrnStat_REGION
  /-- JRN_STAT.COMPACTING, Table 17.9. -/
  | jrnStat_COMPACTING
  /-- JRN_STAT.ERASE_BUSY, Table 17.9. -/
  | jrnStat_ERASE_BUSY
  /-- JRN_STAT.SHUTDOWN_DONE, Table 17.9. -/
  | jrnStat_SHUTDOWN_DONE
  /-- JRN_STAT.WRITE_ERR, Table 17.9. -/
  | jrnStat_WRITE_ERR
  /-- JRN_CTL.APPEND, Table 17.10. -/
  | jrnCtl_APPEND
  /-- JRN_CTL.SHUTDOWN, Table 17.10. -/
  | jrnCtl_SHUTDOWN
  /-- JRN_CFG.PERIOD_MIN, Table 17.11. -/
  | jrnCfg_PERIOD_MIN
  /-- SYS_START_STAT.STATE, Table 18.3. -/
  | sysStartStat_STATE
  /-- SYS_START_STAT.STEP, Table 18.3. -/
  | sysStartStat_STEP
  /-- SYS_START_STAT.ENABLED, Table 18.3. -/
  | sysStartStat_ENABLED
  /-- SYS_START_STAT.GRADE, Table 18.3. -/
  | sysStartStat_GRADE
  /-- SYS_START_STAT.WAITING, Table 18.3. -/
  | sysStartStat_WAITING
  /-- SYS_START_STAT.CAUSE, Table 18.3. -/
  | sysStartStat_CAUSE
  /-- SYS_START_STAT.READY_MS, Table 18.3. -/
  | sysStartStat_READY_MS
  /-- SYS_CORE_MAP.MAP, Table 18.4. -/
  | sysCoreMap_MAP
  /-- SYS_RESTART.KIND, Table 18.6. -/
  | sysRestart_KIND
  /-- SYS_TIME.TIME, Table 19.5. -/
  | sysTime_TIME
  /-- SYS_TIME_RAW.RAW, Table 19.5. -/
  | sysTimeRaw_RAW
  /-- SYS_TIME_OFFSET.OFFSET, Table 19.5. -/
  | sysTimeOffset_OFFSET
  /-- MEM_CAPACITY.TOTAL_FRAMES, Table 19.6. -/
  | memCapacity_TOTAL_FRAMES
  /-- MEM_CAPACITY.FREE_FRAMES, Table 19.6. -/
  | memCapacity_FREE_FRAMES
  /-- MEM_CAPACITY.LENT_FRAMES, Table 19.6. -/
  | memCapacity_LENT_FRAMES
  /-- HOST_QP0_CFG.PEER_GID, Table 19.7. -/
  | hostQp0Cfg_PEER_GID
  /-- HOST_QP0_CFG.PEER_QPN, Table 19.7. -/
  | hostQp0Cfg_PEER_QPN
  /-- HOST_QP0_CFG.SEND_PSN, Table 19.7. -/
  | hostQp0Cfg_SEND_PSN
  /-- HOST_QP0_CFG.RECV_PSN, Table 19.7. -/
  | hostQp0Cfg_RECV_PSN
  /-- HOST_QP0_CFG.KEY, Table 19.7. -/
  | hostQp0Cfg_KEY
  /-- HOST_QP0_CFG.MTU, Table 19.7. -/
  | hostQp0Cfg_MTU
  /-- HOST_QP0_CFG.DSCP, Table 19.7. -/
  | hostQp0Cfg_DSCP
  /-- HOST_QP0_CFG.PEER_MAC, Table 19.7. -/
  | hostQp0Cfg_PEER_MAC
  /-- HOST_QP0_CFG.TIMEOUT_EXP, Table 19.7. -/
  | hostQp0Cfg_TIMEOUT_EXP
  /-- HOST_QP0_CFG.EC_LOG2, Table 19.7. -/
  | hostQp0Cfg_EC_LOG2
  /-- HOST_QP0_CFG.CQ_ADDR, Table 19.7. -/
  | hostQp0Cfg_CQ_ADDR
  /-- HOST_QP0_CFG.CQ_RKEY, Table 19.7. -/
  | hostQp0Cfg_CQ_RKEY
  /-- HOST_QP0_CFG.STATE, Table 19.7. -/
  | hostQp0Cfg_STATE
  /-- HOST_QP0_CFG.CFG_ERR, Table 19.7. -/
  | hostQp0Cfg_CFG_ERR
  /-- HOST_QP0_CFG.DROP, Table 19.7. -/
  | hostQp0Cfg_DROP
  /-- HOST_QP0_CFG.CONNECT, Table 19.7. -/
  | hostQp0Cfg_CONNECT
deriving DecidableEq, Repr

/-- One row of a register table: bits [hi:lo] of the register (counted over all its words), access, reset
value and whether its level is Expert. Resets that read From journal or Calibrated stand as 0 (log entry 3). -/
structure FldInfo where
  reg : Reg
  hi : Nat
  lo : Nat
  acc : Access
  reset : Nat
  expert : Bool
deriving DecidableEq, Repr

/-- The tables of register fields. -/
def Fld.info : Fld → FldInfo
  | .sysContract_LEVEL_MAX => ⟨.sysContract, 23, 16, .ro, 1, false⟩
  | .sysContract_LEVEL_MIN => ⟨.sysContract, 15, 8, .ro, 1, false⟩
  | .sysContract_STEPPING => ⟨.sysContract, 7, 0, .ro, 0, false⟩
  | .schPlan_PLAN_POINT => ⟨.schPlan, 7, 0, .rwx, 128, true⟩
  | .schHandoverStat_LATE_COUNT => ⟨.schHandoverStat, 63, 32, .ro, 0, false⟩
  | .schHandoverStat_LAST_LEAD_US => ⟨.schHandoverStat, 31, 16, .ro, 0, false⟩
  | .schHandoverStat_LAST_LATE_US => ⟨.schHandoverStat, 15, 0, .ro, 0, false⟩
  | .sysExpertCtl_IGNORED_SEEN => ⟨.sysExpertCtl, 1, 1, .w1c, 0, false⟩
  | .sysExpertCtl_EXPERT_UNLOCK => ⟨.sysExpertCtl, 0, 0, .rw, 0, false⟩
  | .coreExcRecord_VALID => ⟨.coreExcRecord, 127, 127, .w1c, 0, false⟩
  | .coreExcRecord_COL => ⟨.coreExcRecord, 109, 96, .ro, 0, false⟩
  | .coreExcRecord_KGROUP => ⟨.coreExcRecord, 95, 64, .ro, 0, false⟩
  | .coreExcRecord_TASK_ID => ⟨.coreExcRecord, 63, 48, .ro, 0, false⟩
  | .coreExcRecord_TILE_IDX => ⟨.coreExcRecord, 47, 24, .ro, 0, false⟩
  | .coreExcRecord_ROW => ⟨.coreExcRecord, 23, 14, .ro, 0, false⟩
  | .coreExcRecord_FLAG => ⟨.coreExcRecord, 3, 0, .ro, 0, false⟩
  | .wrdExcCount_INVALID_TILES => ⟨.wrdExcCount, 63, 48, .ro, 0, false⟩
  | .wrdExcCount_DIVZERO_TILES => ⟨.wrdExcCount, 47, 32, .ro, 0, false⟩
  | .wrdExcCount_OVERFLOW_TILES => ⟨.wrdExcCount, 31, 16, .ro, 0, false⟩
  | .wrdExcCount_UNDERFLOW_TILES => ⟨.wrdExcCount, 15, 0, .ro, 0, false⟩
  | .engStat_EXCLUDED => ⟨.engStat, 31, 31, .ro, 0, false⟩
  | .engStat_LAST_CAUSE => ⟨.engStat, 27, 24, .ro, 0, false⟩
  | .engStat_LAST_ENG => ⟨.engStat, 23, 22, .ro, 0, false⟩
  | .engStat_REPLAYS => ⟨.engStat, 15, 0, .ro, 0, false⟩
  | .kvpWardCfg_POOLS => ⟨.kvpWardCfg, 63, 6, .rw, 0, false⟩
  | .kvpWardCfg_DROP_CLASS => ⟨.kvpWardCfg, 3, 2, .rwx, 0, true⟩
  | .kvpWardCfg_RECOMP_EN => ⟨.kvpWardCfg, 1, 1, .rw, 1, false⟩
  | .kvpWardCfg_DROP_EN => ⟨.kvpWardCfg, 0, 0, .rw, 1, false⟩
  | .kvpWardStat_DROPS => ⟨.kvpWardStat, 63, 48, .ro, 0, false⟩
  | .kvpWardStat_SPILLS => ⟨.kvpWardStat, 47, 32, .ro, 0, false⟩
  | .kvpWardStat_RECOMPUTES => ⟨.kvpWardStat, 31, 16, .ro, 0, false⟩
  | .kvpWardStat_ABSENT => ⟨.kvpWardStat, 15, 0, .ro, 0, false⟩
  | .expPortCfg_SWITCHED => ⟨.expPortCfg, 1, 1, .rw, 0, false⟩
  | .expPortCfg_ENABLE => ⟨.expPortCfg, 0, 0, .rw, 0, false⟩
  | .expPartnerCfg_ENABLE => ⟨.expPartnerCfg, 63, 63, .rw, 0, false⟩
  | .expPartnerCfg_WARD => ⟨.expPartnerCfg, 62, 54, .rw, 0, false⟩
  | .expPartnerCfg_PORT_MASK => ⟨.expPartnerCfg, 53, 50, .rw, 0, false⟩
  | .expPartnerCfg_INBOX_PORT => ⟨.expPartnerCfg, 49, 48, .rw, 0, false⟩
  | .expPartnerCfg_INBOX_SLOT => ⟨.expPartnerCfg, 47, 42, .rw, 0, false⟩
  | .expPartnerCfg_KEYWAY => ⟨.expPartnerCfg, 41, 36, .rw, 0, false⟩
  | .expPartnerCfg_QP_BASE => ⟨.expPartnerCfg, 35, 22, .rw, 0, false⟩
  | .expPartnerCfg_CREDIT_WAIT => ⟨.expPartnerCfg, 15, 0, .rwx, 0, true⟩
  | .expPartnerStat_STATE => ⟨.expPartnerStat, 63, 62, .ro, 0, false⟩
  | .expPartnerStat_CAUSE => ⟨.expPartnerStat, 61, 58, .ro, 0, false⟩
  | .expPartnerStat_CVT_INVALID => ⟨.expPartnerStat, 57, 57, .w1c, 0, false⟩
  | .expPartnerStat_CVT_OVERFLOW => ⟨.expPartnerStat, 56, 56, .w1c, 0, false⟩
  | .expPartnerStat_CVT_UNDERFLOW => ⟨.expPartnerStat, 55, 55, .w1c, 0, false⟩
  | .expPartnerStat_BAD_GRANTS => ⟨.expPartnerStat, 47, 32, .ro, 0, false⟩
  | .expPartnerStat_NAK_RETRIES => ⟨.expPartnerStat, 31, 16, .ro, 0, false⟩
  | .expPartnerStat_BINDINGS => ⟨.expPartnerStat, 15, 0, .ro, 0, false⟩
  | .expKeywayLoad_WARD => ⟨.expKeywayLoad, 72, 64, .wo, 0, false⟩
  | .expKeywayLoad_ADDR => ⟨.expKeywayLoad, 63, 6, .wo, 0, false⟩
  | .expKeywayLoad_INDEX => ⟨.expKeywayLoad, 5, 0, .wo, 0, false⟩
  | .expKeywayStat_ERR => ⟨.expKeywayStat, 0, 0, .w1c, 0, false⟩
  | .memSramStat_CORRECTED => ⟨.memSramStat, 63, 32, .ro, 0, false⟩
  | .memSramStat_UNCORRECTABLE => ⟨.memSramStat, 31, 16, .ro, 0, false⟩
  | .memSramStat_POISON_WRITTEN => ⟨.memSramStat, 15, 0, .ro, 0, false⟩
  | .hbmErrStat_UE_COUNT => ⟨.hbmErrStat, 63, 48, .ro, 0, false⟩
  | .hbmErrStat_ADDR_COUNT => ⟨.hbmErrStat, 47, 32, .ro, 0, false⟩
  | .hbmErrStat_CE_COUNT => ⟨.hbmErrStat, 31, 0, .ro, 0, false⟩
  | .hbmScrubCfg_PERIOD_H => ⟨.hbmScrubCfg, 31, 24, .rwx, 24, true⟩
  | .hbmScrubCfg_PASSES => ⟨.hbmScrubCfg, 23, 0, .ro, 0, false⟩
  | .hbmPcMap_DEVICE_PC => ⟨.hbmPcMap, 36, 32, .ro, 0, false⟩
  | .hbmPcMap_LIVE => ⟨.hbmPcMap, 31, 0, .ro, 0, false⟩
  | .memLend_ENABLE => ⟨.memLend, 63, 63, .ro, 0, false⟩
  | .memLend_WRITABLE => ⟨.memLend, 62, 62, .ro, 0, false⟩
  | .memLend_BORROWER_NODE => ⟨.memLend, 61, 50, .ro, 0, false⟩
  | .memLend_BORROWER_WARD => ⟨.memLend, 49, 41, .ro, 0, false⟩
  | .memLend_SIZE => ⟨.memLend, 14, 0, .ro, 0, false⟩
  | .hngTorusCfg_VALID => ⟨.hngTorusCfg, 31, 31, .rw, 0, false⟩
  | .hngTorusCfg_LZ => ⟨.hngTorusCfg, 27, 24, .rw, 0, false⟩
  | .hngTorusCfg_LY => ⟨.hngTorusCfg, 23, 20, .rw, 0, false⟩
  | .hngTorusCfg_LX => ⟨.hngTorusCfg, 19, 16, .rw, 0, false⟩
  | .hngTorusCfg_NODE => ⟨.hngTorusCfg, 11, 0, .rw, 0, false⟩
  | .hngPortStat_STATE => ⟨.hngPortStat, 63, 61, .ro, 0, false⟩
  | .hngPortStat_CAUSE => ⟨.hngPortStat, 60, 57, .ro, 0, false⟩
  | .hngPortStat_PEER_NODE => ⟨.hngPortStat, 56, 45, .ro, 0, false⟩
  | .hngPortStat_PEER_PORT => ⟨.hngPortStat, 44, 42, .ro, 0, false⟩
  | .hngPortStat_WORST_LANE => ⟨.hngPortStat, 34, 32, .ro, 0, false⟩
  | .hngPortStat_LINK_DOWNS => ⟨.hngPortStat, 31, 16, .ro, 0, false⟩
  | .hngPortStat_RETRIES => ⟨.hngPortStat, 15, 0, .ro, 0, false⟩
  | .hngRetireCfg_LANE_LIMIT => ⟨.hngRetireCfg, 31, 16, .rwx, 16384, true⟩
  | .hngRetireCfg_RETRY_LIMIT => ⟨.hngRetireCfg, 15, 0, .rwx, 4096, true⟩
  | .hngDrrCfg_W_REDUCE => ⟨.hngDrrCfg, 11, 8, .rwx, 1, true⟩
  | .hngDrrCfg_W_RESP => ⟨.hngDrrCfg, 7, 4, .rwx, 1, true⟩
  | .hngDrrCfg_W_REQ => ⟨.hngDrrCfg, 3, 0, .rwx, 1, true⟩
  | .hngTimeStat_LOCKED => ⟨.hngTimeStat, 63, 63, .ro, 0, false⟩
  | .hngTimeStat_ROOT => ⟨.hngTimeStat, 62, 51, .ro, 0, false⟩
  | .hngTimeStat_HOPS => ⟨.hngTimeStat, 50, 46, .ro, 0, false⟩
  | .hngTimeStat_UPSTREAM => ⟨.hngTimeStat, 45, 43, .ro, 0, false⟩
  | .hngTimeStat_LAST_CORR => ⟨.hngTimeStat, 31, 16, .ro, 0, false⟩
  | .hngTimeStat_LOCK_LOSSES => ⟨.hngTimeStat, 15, 0, .ro, 0, false⟩
  | .colSlotStat_RESERVED_SLOTS => ⟨.colSlotStat, 63, 52, .ro, 0, false⟩
  | .colSlotStat_CLAIMED => ⟨.colSlotStat, 51, 40, .ro, 0, false⟩
  | .colSlotStat_FREE => ⟨.colSlotStat, 39, 28, .ro, 2048, false⟩
  | .colSlotStat_WAITING => ⟨.colSlotStat, 27, 20, .ro, 0, false⟩
  | .colSlotStat_WAIT_EVENTS => ⟨.colSlotStat, 19, 0, .ro, 0, false⟩
  | .colGroupStat_ACTIVE => ⟨.colGroupStat, 63, 63, .ro, 0, false⟩
  | .colGroupStat_WARD => ⟨.colGroupStat, 62, 54, .ro, 0, false⟩
  | .colGroupStat_OPEN_OPS => ⟨.colGroupStat, 53, 46, .ro, 0, false⟩
  | .colGroupStat_HELD_X => ⟨.colGroupStat, 45, 39, .ro, 0, false⟩
  | .colGroupStat_HELD_Y => ⟨.colGroupStat, 38, 32, .ro, 0, false⟩
  | .colGroupStat_HELD_Z => ⟨.colGroupStat, 31, 25, .ro, 0, false⟩
  | .colGroupStat_FAULTS => ⟨.colGroupStat, 15, 0, .ro, 0, false⟩
  | .hostEcnCfg_PRIO => ⟨.hostEcnCfg, 31, 29, .rw, 3, false⟩
  | .hostEcnCfg_ECN_EN => ⟨.hostEcnCfg, 28, 28, .rw, 1, false⟩
  | .hostEcnCfg_PERIOD_US => ⟨.hostEcnCfg, 27, 20, .rwx, 55, true⟩
  | .hostEcnCfg_STEP_GBPS => ⟨.hostEcnCfg, 19, 12, .rwx, 5, true⟩
  | .hostEcnCfg_MIN_GBPS => ⟨.hostEcnCfg, 11, 4, .rwx, 1, true⟩
  | .hostEcnCfg_GSHIFT => ⟨.hostEcnCfg, 3, 0, .rwx, 4, true⟩
  | .hostMgmtStat_NEXT_SEQ => ⟨.hostMgmtStat, 63, 32, .ro, 1, false⟩
  | .hostMgmtStat_REJECTED => ⟨.hostMgmtStat, 31, 16, .ro, 0, false⟩
  | .hostPortStat_LINK => ⟨.hostPortStat, 63, 62, .ro, 0, false⟩
  | .hostPortStat_LINK_DOWNS => ⟨.hostPortStat, 47, 32, .ro, 0, false⟩
  | .hostPortStat_REJECTS => ⟨.hostPortStat, 31, 16, .ro, 0, false⟩
  | .hostPortStat_DOORBELL_ERR => ⟨.hostPortStat, 15, 0, .ro, 0, false⟩
  | .wrdPolicy_FRAME_QUOTA => ⟨.wrdPolicy, 127, 110, .rw, 0, false⟩
  | .wrdPolicy_QP_QUOTA => ⟨.wrdPolicy, 109, 96, .rw, 0, false⟩
  | .wrdPolicy_GROUP_QUOTA => ⟨.wrdPolicy, 95, 89, .rw, 0, false⟩
  | .wrdPolicy_CL_MIN => ⟨.wrdPolicy, 88, 84, .rw, 0, false⟩
  | .wrdPolicy_CL_MAX => ⟨.wrdPolicy, 83, 79, .rw, 0, false⟩
  | .wrdPolicy_POWER_FRAC => ⟨.wrdPolicy, 78, 71, .rw, 0, false⟩
  | .wrdPolicy_BW_FRAC => ⟨.wrdPolicy, 70, 63, .rw, 0, false⟩
  | .wrdPolicy_BW_FIXED => ⟨.wrdPolicy, 62, 62, .rwx, 0, true⟩
  | .wrdPolicy_ACTIVE => ⟨.wrdPolicy, 61, 61, .ro, 0, false⟩
  | .wrdPolicy_EXPERT_UNLOCK => ⟨.wrdPolicy, 0, 0, .rw, 0, false⟩
  | .secStat_DEVICE_ID => ⟨.secStat, 63, 32, .ro, 0, false⟩
  | .secStat_IDENTITY => ⟨.secStat, 31, 30, .ro, 0, false⟩
  | .secStat_OWNER => ⟨.secStat, 29, 28, .ro, 0, false⟩
  | .secStat_BOOT_SLOT => ⟨.secStat, 27, 27, .ro, 0, false⟩
  | .secStat_FALLBACK => ⟨.secStat, 26, 26, .ro, 0, false⟩
  | .secStat_UPDATE_PENDING => ⟨.secStat, 25, 25, .ro, 0, false⟩
  | .clkClusterStat_FREQ => ⟨.clkClusterStat, 63, 59, .ro, 28, false⟩
  | .clkClusterStat_TARGET => ⟨.clkClusterStat, 58, 54, .ro, 28, false⟩
  | .clkClusterStat_DUTY => ⟨.clkClusterStat, 53, 50, .ro, 15, false⟩
  | .clkClusterStat_VOLT_MV => ⟨.clkClusterStat, 49, 40, .ro, 0, false⟩
  | .clkClusterStat_LIMIT => ⟨.clkClusterStat, 39, 37, .ro, 0, false⟩
  | .clkClusterStat_STRETCH => ⟨.clkClusterStat, 36, 36, .ro, 0, false⟩
  | .clkClusterStat_STRETCHES => ⟨.clkClusterStat, 31, 0, .ro, 0, false⟩
  | .clkClusterCfg_FMAX => ⟨.clkClusterCfg, 5, 1, .rwx, 28, true⟩
  | .clkClusterCfg_HOLD => ⟨.clkClusterCfg, 0, 0, .rwx, 0, true⟩
  | .pwrCfg_WINDOW => ⟨.pwrCfg, 31, 30, .rwx, 1, true⟩
  | .pwrCfg_WEIGHT_SRC => ⟨.pwrCfg, 29, 29, .rwx, 0, true⟩
  | .pwrCfg_COMPUTE_RESERVE_W => ⟨.pwrCfg, 23, 12, .rwx, 0, true⟩
  | .pwrCfg_MEM_LIMIT_W => ⟨.pwrCfg, 11, 0, .rwx, 0, true⟩
  | .pwrWeight_WEIGHT => ⟨.pwrWeight, 15, 0, .rwx, 0, true⟩
  | .pwrCap_WATTS => ⟨.pwrCap, 11, 0, .rw, 1600, false⟩
  | .pwrStat_EST_W => ⟨.pwrStat, 63, 52, .ro, 0, false⟩
  | .pwrStat_COMPUTE_W => ⟨.pwrStat, 51, 40, .ro, 0, false⟩
  | .pwrStat_LINK_W => ⟨.pwrStat, 39, 30, .ro, 0, false⟩
  | .pwrStat_MEM_W => ⟨.pwrStat, 29, 20, .ro, 0, false⟩
  | .pwrStat_FIXED_W => ⟨.pwrStat, 19, 10, .ro, 0, false⟩
  | .pwrStat_THERM_ALERT => ⟨.pwrStat, 3, 3, .w1c, 0, false⟩
  | .pwrStat_CAP_UNMET => ⟨.pwrStat, 2, 2, .w1c, 0, false⟩
  | .pwrStat_HBM_LIMITED => ⟨.pwrStat, 1, 1, .ro, 0, false⟩
  | .pwrStat_CAL_OK => ⟨.pwrStat, 0, 0, .ro, 0, false⟩
  | .pwrDroopCfg_HOLD_CYCLES => ⟨.pwrDroopCfg, 15, 8, .rwx, 32, true⟩
  | .pwrDroopCfg_THRESH_MV => ⟨.pwrDroopCfg, 7, 0, .rwx, 40, true⟩
  | .pwrThermCfg_ALERT_C => ⟨.pwrThermCfg, 15, 8, .rw, 102, false⟩
  | .pwrThermCfg_TARGET_C => ⟨.pwrThermCfg, 7, 0, .rw, 100, false⟩
  | .pwrThermStat_HOTTEST => ⟨.pwrThermStat, 63, 54, .ro, 0, false⟩
  | .pwrThermStat_SENSOR => ⟨.pwrThermStat, 53, 49, .ro, 0, false⟩
  | .pwrThermStat_LIMITED_WINDOWS => ⟨.pwrThermStat, 31, 0, .ro, 0, false⟩
  | .wrdEnergy_TOTAL => ⟨.wrdEnergy, 127, 64, .ro, 0, false⟩
  | .wrdEnergy_LAST_STEP => ⟨.wrdEnergy, 63, 32, .ro, 0, false⟩
  | .wrdEnergy_LAST_BUDGET_W => ⟨.wrdEnergy, 31, 20, .ro, 0, false⟩
  | .clkStepCfg_SYNC_EN => ⟨.clkStepCfg, 16, 16, .rw, 0, false⟩
  | .clkStepCfg_LENGTH_US => ⟨.clkStepCfg, 13, 0, .rw, 1000, false⟩
  | .clkStepStat_STEP_COUNT => ⟨.clkStepStat, 63, 32, .ro, 0, false⟩
  | .clkStepStat_LAST_ADJ => ⟨.clkStepStat, 31, 0, .ro, 0, false⟩
  | .clkStepSyncStat_PULLS => ⟨.clkStepSyncStat, 63, 48, .ro, 0, false⟩
  | .clkStepSyncStat_PUSHES => ⟨.clkStepSyncStat, 47, 32, .ro, 0, false⟩
  | .clkStepSyncStat_OUTSIDE => ⟨.clkStepSyncStat, 31, 16, .ro, 0, false⟩
  | .clkStepSyncStat_COINCIDENT => ⟨.clkStepSyncStat, 15, 0, .ro, 0, false⟩
  | .logStat_HEAD => ⟨.logStat, 63, 32, .ro, 0, false⟩
  | .logStat_LOST => ⟨.logStat, 31, 16, .ro, 0, false⟩
  | .logStat_FATAL => ⟨.logStat, 2, 2, .ro, 0, false⟩
  | .logStat_ALERT => ⟨.logStat, 1, 1, .w1c, 0, false⟩
  | .logCfg_CE_LIMIT => ⟨.logCfg, 3, 3, .rwx, 1, true⟩
  | .logCfg_NOTIFY_EN => ⟨.logCfg, 2, 2, .rw, 1, false⟩
  | .logCfg_ALERT_SEV => ⟨.logCfg, 1, 0, .rw, 2, false⟩
  | .logFilter_EN => ⟨.logFilter, 15, 15, .rw, 0, false⟩
  | .logFilter_FILTER_WARD => ⟨.logFilter, 8, 0, .rw, 0, false⟩
  | .auvSeq_SEQ => ⟨.auvSeq, 31, 0, .ro, 0, false⟩
  | .jrnStat_EPOCH => ⟨.jrnStat, 63, 32, .ro, 0, false⟩
  | .jrnStat_FILL_KIB => ⟨.jrnStat, 31, 20, .ro, 0, false⟩
  | .jrnStat_RECOVERY => ⟨.jrnStat, 19, 17, .ro, 0, false⟩
  | .jrnStat_REGION => ⟨.jrnStat, 16, 16, .ro, 0, false⟩
  | .jrnStat_COMPACTING => ⟨.jrnStat, 15, 15, .ro, 0, false⟩
  | .jrnStat_ERASE_BUSY => ⟨.jrnStat, 14, 14, .ro, 0, false⟩
  | .jrnStat_SHUTDOWN_DONE => ⟨.jrnStat, 13, 13, .ro, 0, false⟩
  | .jrnStat_WRITE_ERR => ⟨.jrnStat, 12, 12, .w1c, 0, false⟩
  | .jrnCtl_APPEND => ⟨.jrnCtl, 1, 1, .wo, 0, false⟩
  | .jrnCtl_SHUTDOWN => ⟨.jrnCtl, 0, 0, .wo, 0, false⟩
  | .jrnCfg_PERIOD_MIN => ⟨.jrnCfg, 7, 0, .rwx, 10, true⟩
  | .sysStartStat_STATE => ⟨.sysStartStat, 63, 61, .ro, 0, false⟩
  | .sysStartStat_STEP => ⟨.sysStartStat, 60, 57, .ro, 3, false⟩
  | .sysStartStat_ENABLED => ⟨.sysStartStat, 56, 49, .ro, 0, false⟩
  | .sysStartStat_GRADE => ⟨.sysStartStat, 48, 48, .ro, 0, false⟩
  | .sysStartStat_WAITING => ⟨.sysStartStat, 47, 42, .ro, 0, false⟩
  | .sysStartStat_CAUSE => ⟨.sysStartStat, 41, 40, .ro, 0, false⟩
  | .sysStartStat_READY_MS => ⟨.sysStartStat, 31, 0, .ro, 0, false⟩
  | .sysCoreMap_MAP => ⟨.sysCoreMap, 191, 0, .ro, 0, false⟩
  | .sysRestart_KIND => ⟨.sysRestart, 1, 0, .wo, 0, false⟩
  | .sysTime_TIME => ⟨.sysTime, 63, 0, .ro, 0, false⟩
  | .sysTimeRaw_RAW => ⟨.sysTimeRaw, 63, 0, .ro, 0, false⟩
  | .sysTimeOffset_OFFSET => ⟨.sysTimeOffset, 63, 0, .rw, 0, false⟩
  | .memCapacity_TOTAL_FRAMES => ⟨.memCapacity, 63, 44, .ro, 0, false⟩
  | .memCapacity_FREE_FRAMES => ⟨.memCapacity, 43, 24, .ro, 0, false⟩
  | .memCapacity_LENT_FRAMES => ⟨.memCapacity, 23, 4, .ro, 0, false⟩
  | .hostQp0Cfg_PEER_GID => ⟨.hostQp0Cfg, 127, 0, .rw, 0, false⟩
  | .hostQp0Cfg_PEER_QPN => ⟨.hostQp0Cfg, 191, 168, .rw, 0, false⟩
  | .hostQp0Cfg_SEND_PSN => ⟨.hostQp0Cfg, 167, 144, .rw, 0, false⟩
  | .hostQp0Cfg_RECV_PSN => ⟨.hostQp0Cfg, 255, 232, .rw, 0, false⟩
  | .hostQp0Cfg_KEY => ⟨.hostQp0Cfg, 231, 204, .rw, 0, false⟩
  | .hostQp0Cfg_MTU => ⟨.hostQp0Cfg, 203, 202, .rw, 2, false⟩
  | .hostQp0Cfg_DSCP => ⟨.hostQp0Cfg, 201, 196, .rw, 0, false⟩
  | .hostQp0Cfg_PEER_MAC => ⟨.hostQp0Cfg, 319, 272, .rw, 0, false⟩
  | .hostQp0Cfg_TIMEOUT_EXP => ⟨.hostQp0Cfg, 271, 267, .rw, 10, false⟩
  | .hostQp0Cfg_EC_LOG2 => ⟨.hostQp0Cfg, 266, 263, .rw, 4, false⟩
  | .hostQp0Cfg_CQ_ADDR => ⟨.hostQp0Cfg, 383, 320, .rw, 0, false⟩
  | .hostQp0Cfg_CQ_RKEY => ⟨.hostQp0Cfg, 447, 416, .rw, 0, false⟩
  | .hostQp0Cfg_STATE => ⟨.hostQp0Cfg, 511, 510, .ro, 0, false⟩
  | .hostQp0Cfg_CFG_ERR => ⟨.hostQp0Cfg, 509, 509, .ro, 0, false⟩
  | .hostQp0Cfg_DROP => ⟨.hostQp0Cfg, 449, 449, .wo, 0, false⟩
  | .hostQp0Cfg_CONNECT => ⟨.hostQp0Cfg, 448, 448, .wo, 0, false⟩

/-- Every field, register by register, most significant first. -/
def Fld.all0 : List Fld :=
  [.sysContract_LEVEL_MAX, .sysContract_LEVEL_MIN, .sysContract_STEPPING, .schPlan_PLAN_POINT, .schHandoverStat_LATE_COUNT, .schHandoverStat_LAST_LEAD_US, .schHandoverStat_LAST_LATE_US, .sysExpertCtl_IGNORED_SEEN, .sysExpertCtl_EXPERT_UNLOCK, .coreExcRecord_VALID, .coreExcRecord_COL, .coreExcRecord_KGROUP, .coreExcRecord_TASK_ID, .coreExcRecord_TILE_IDX, .coreExcRecord_ROW, .coreExcRecord_FLAG, .wrdExcCount_INVALID_TILES, .wrdExcCount_DIVZERO_TILES, .wrdExcCount_OVERFLOW_TILES, .wrdExcCount_UNDERFLOW_TILES, .engStat_EXCLUDED, .engStat_LAST_CAUSE, .engStat_LAST_ENG, .engStat_REPLAYS, .kvpWardCfg_POOLS, .kvpWardCfg_DROP_CLASS, .kvpWardCfg_RECOMP_EN, .kvpWardCfg_DROP_EN, .kvpWardStat_DROPS, .kvpWardStat_SPILLS, .kvpWardStat_RECOMPUTES, .kvpWardStat_ABSENT, .expPortCfg_SWITCHED, .expPortCfg_ENABLE, .expPartnerCfg_ENABLE, .expPartnerCfg_WARD, .expPartnerCfg_PORT_MASK, .expPartnerCfg_INBOX_PORT, .expPartnerCfg_INBOX_SLOT, .expPartnerCfg_KEYWAY]
def Fld.all1 : List Fld :=
  [.expPartnerCfg_QP_BASE, .expPartnerCfg_CREDIT_WAIT, .expPartnerStat_STATE, .expPartnerStat_CAUSE, .expPartnerStat_CVT_INVALID, .expPartnerStat_CVT_OVERFLOW, .expPartnerStat_CVT_UNDERFLOW, .expPartnerStat_BAD_GRANTS, .expPartnerStat_NAK_RETRIES, .expPartnerStat_BINDINGS, .expKeywayLoad_WARD, .expKeywayLoad_ADDR, .expKeywayLoad_INDEX, .expKeywayStat_ERR, .memSramStat_CORRECTED, .memSramStat_UNCORRECTABLE, .memSramStat_POISON_WRITTEN, .hbmErrStat_UE_COUNT, .hbmErrStat_ADDR_COUNT, .hbmErrStat_CE_COUNT, .hbmScrubCfg_PERIOD_H, .hbmScrubCfg_PASSES, .hbmPcMap_DEVICE_PC, .hbmPcMap_LIVE, .memLend_ENABLE, .memLend_WRITABLE, .memLend_BORROWER_NODE, .memLend_BORROWER_WARD, .memLend_SIZE, .hngTorusCfg_VALID, .hngTorusCfg_LZ, .hngTorusCfg_LY, .hngTorusCfg_LX, .hngTorusCfg_NODE, .hngPortStat_STATE, .hngPortStat_CAUSE, .hngPortStat_PEER_NODE, .hngPortStat_PEER_PORT, .hngPortStat_WORST_LANE, .hngPortStat_LINK_DOWNS]
def Fld.all2 : List Fld :=
  [.hngPortStat_RETRIES, .hngRetireCfg_LANE_LIMIT, .hngRetireCfg_RETRY_LIMIT, .hngDrrCfg_W_REDUCE, .hngDrrCfg_W_RESP, .hngDrrCfg_W_REQ, .hngTimeStat_LOCKED, .hngTimeStat_ROOT, .hngTimeStat_HOPS, .hngTimeStat_UPSTREAM, .hngTimeStat_LAST_CORR, .hngTimeStat_LOCK_LOSSES, .colSlotStat_RESERVED_SLOTS, .colSlotStat_CLAIMED, .colSlotStat_FREE, .colSlotStat_WAITING, .colSlotStat_WAIT_EVENTS, .colGroupStat_ACTIVE, .colGroupStat_WARD, .colGroupStat_OPEN_OPS, .colGroupStat_HELD_X, .colGroupStat_HELD_Y, .colGroupStat_HELD_Z, .colGroupStat_FAULTS, .hostEcnCfg_PRIO, .hostEcnCfg_ECN_EN, .hostEcnCfg_PERIOD_US, .hostEcnCfg_STEP_GBPS, .hostEcnCfg_MIN_GBPS, .hostEcnCfg_GSHIFT, .hostMgmtStat_NEXT_SEQ, .hostMgmtStat_REJECTED, .hostPortStat_LINK, .hostPortStat_LINK_DOWNS, .hostPortStat_REJECTS, .hostPortStat_DOORBELL_ERR, .wrdPolicy_FRAME_QUOTA, .wrdPolicy_QP_QUOTA, .wrdPolicy_GROUP_QUOTA, .wrdPolicy_CL_MIN]
def Fld.all3 : List Fld :=
  [.wrdPolicy_CL_MAX, .wrdPolicy_POWER_FRAC, .wrdPolicy_BW_FRAC, .wrdPolicy_BW_FIXED, .wrdPolicy_ACTIVE, .wrdPolicy_EXPERT_UNLOCK, .secStat_DEVICE_ID, .secStat_IDENTITY, .secStat_OWNER, .secStat_BOOT_SLOT, .secStat_FALLBACK, .secStat_UPDATE_PENDING, .clkClusterStat_FREQ, .clkClusterStat_TARGET, .clkClusterStat_DUTY, .clkClusterStat_VOLT_MV, .clkClusterStat_LIMIT, .clkClusterStat_STRETCH, .clkClusterStat_STRETCHES, .clkClusterCfg_FMAX, .clkClusterCfg_HOLD, .pwrCfg_WINDOW, .pwrCfg_WEIGHT_SRC, .pwrCfg_COMPUTE_RESERVE_W, .pwrCfg_MEM_LIMIT_W, .pwrWeight_WEIGHT, .pwrCap_WATTS, .pwrStat_EST_W, .pwrStat_COMPUTE_W, .pwrStat_LINK_W, .pwrStat_MEM_W, .pwrStat_FIXED_W, .pwrStat_THERM_ALERT, .pwrStat_CAP_UNMET, .pwrStat_HBM_LIMITED, .pwrStat_CAL_OK, .pwrDroopCfg_HOLD_CYCLES, .pwrDroopCfg_THRESH_MV, .pwrThermCfg_ALERT_C, .pwrThermCfg_TARGET_C]
def Fld.all4 : List Fld :=
  [.pwrThermStat_HOTTEST, .pwrThermStat_SENSOR, .pwrThermStat_LIMITED_WINDOWS, .wrdEnergy_TOTAL, .wrdEnergy_LAST_STEP, .wrdEnergy_LAST_BUDGET_W, .clkStepCfg_SYNC_EN, .clkStepCfg_LENGTH_US, .clkStepStat_STEP_COUNT, .clkStepStat_LAST_ADJ, .clkStepSyncStat_PULLS, .clkStepSyncStat_PUSHES, .clkStepSyncStat_OUTSIDE, .clkStepSyncStat_COINCIDENT, .logStat_HEAD, .logStat_LOST, .logStat_FATAL, .logStat_ALERT, .logCfg_CE_LIMIT, .logCfg_NOTIFY_EN, .logCfg_ALERT_SEV, .logFilter_EN, .logFilter_FILTER_WARD, .auvSeq_SEQ, .jrnStat_EPOCH, .jrnStat_FILL_KIB, .jrnStat_RECOVERY, .jrnStat_REGION, .jrnStat_COMPACTING, .jrnStat_ERASE_BUSY, .jrnStat_SHUTDOWN_DONE, .jrnStat_WRITE_ERR, .jrnCtl_APPEND, .jrnCtl_SHUTDOWN, .jrnCfg_PERIOD_MIN, .sysStartStat_STATE, .sysStartStat_STEP, .sysStartStat_ENABLED, .sysStartStat_GRADE, .sysStartStat_WAITING]
def Fld.all5 : List Fld :=
  [.sysStartStat_CAUSE, .sysStartStat_READY_MS, .sysCoreMap_MAP, .sysRestart_KIND, .sysTime_TIME, .sysTimeRaw_RAW, .sysTimeOffset_OFFSET, .memCapacity_TOTAL_FRAMES, .memCapacity_FREE_FRAMES, .memCapacity_LENT_FRAMES, .hostQp0Cfg_PEER_GID, .hostQp0Cfg_PEER_QPN, .hostQp0Cfg_SEND_PSN, .hostQp0Cfg_RECV_PSN, .hostQp0Cfg_KEY, .hostQp0Cfg_MTU, .hostQp0Cfg_DSCP, .hostQp0Cfg_PEER_MAC, .hostQp0Cfg_TIMEOUT_EXP, .hostQp0Cfg_EC_LOG2, .hostQp0Cfg_CQ_ADDR, .hostQp0Cfg_CQ_RKEY, .hostQp0Cfg_STATE, .hostQp0Cfg_CFG_ERR, .hostQp0Cfg_DROP, .hostQp0Cfg_CONNECT]
def Fld.all : List Fld := Fld.all0 ++ Fld.all1 ++ Fld.all2 ++ Fld.all3 ++ Fld.all4 ++ Fld.all5

/-- The fields of one register. -/
def Reg.fields : Reg → List Fld
  | .sysContract => [.sysContract_LEVEL_MAX, .sysContract_LEVEL_MIN, .sysContract_STEPPING]
  | .schPlan => [.schPlan_PLAN_POINT]
  | .schHandoverStat => [.schHandoverStat_LATE_COUNT, .schHandoverStat_LAST_LEAD_US, .schHandoverStat_LAST_LATE_US]
  | .sysExpertCtl => [.sysExpertCtl_IGNORED_SEEN, .sysExpertCtl_EXPERT_UNLOCK]
  | .coreExcRecord => [.coreExcRecord_VALID, .coreExcRecord_COL, .coreExcRecord_KGROUP, .coreExcRecord_TASK_ID, .coreExcRecord_TILE_IDX, .coreExcRecord_ROW, .coreExcRecord_FLAG]
  | .wrdExcCount => [.wrdExcCount_INVALID_TILES, .wrdExcCount_DIVZERO_TILES, .wrdExcCount_OVERFLOW_TILES, .wrdExcCount_UNDERFLOW_TILES]
  | .engStat => [.engStat_EXCLUDED, .engStat_LAST_CAUSE, .engStat_LAST_ENG, .engStat_REPLAYS]
  | .kvpWardCfg => [.kvpWardCfg_POOLS, .kvpWardCfg_DROP_CLASS, .kvpWardCfg_RECOMP_EN, .kvpWardCfg_DROP_EN]
  | .kvpWardStat => [.kvpWardStat_DROPS, .kvpWardStat_SPILLS, .kvpWardStat_RECOMPUTES, .kvpWardStat_ABSENT]
  | .expPortCfg => [.expPortCfg_SWITCHED, .expPortCfg_ENABLE]
  | .expPartnerCfg => [.expPartnerCfg_ENABLE, .expPartnerCfg_WARD, .expPartnerCfg_PORT_MASK, .expPartnerCfg_INBOX_PORT, .expPartnerCfg_INBOX_SLOT, .expPartnerCfg_KEYWAY, .expPartnerCfg_QP_BASE, .expPartnerCfg_CREDIT_WAIT]
  | .expPartnerStat => [.expPartnerStat_STATE, .expPartnerStat_CAUSE, .expPartnerStat_CVT_INVALID, .expPartnerStat_CVT_OVERFLOW, .expPartnerStat_CVT_UNDERFLOW, .expPartnerStat_BAD_GRANTS, .expPartnerStat_NAK_RETRIES, .expPartnerStat_BINDINGS]
  | .expKeywayLoad => [.expKeywayLoad_WARD, .expKeywayLoad_ADDR, .expKeywayLoad_INDEX]
  | .expKeywayStat => [.expKeywayStat_ERR]
  | .memSramStat => [.memSramStat_CORRECTED, .memSramStat_UNCORRECTABLE, .memSramStat_POISON_WRITTEN]
  | .hbmErrStat => [.hbmErrStat_UE_COUNT, .hbmErrStat_ADDR_COUNT, .hbmErrStat_CE_COUNT]
  | .hbmScrubCfg => [.hbmScrubCfg_PERIOD_H, .hbmScrubCfg_PASSES]
  | .hbmPcMap => [.hbmPcMap_DEVICE_PC, .hbmPcMap_LIVE]
  | .memLend => [.memLend_ENABLE, .memLend_WRITABLE, .memLend_BORROWER_NODE, .memLend_BORROWER_WARD, .memLend_SIZE]
  | .hngTorusCfg => [.hngTorusCfg_VALID, .hngTorusCfg_LZ, .hngTorusCfg_LY, .hngTorusCfg_LX, .hngTorusCfg_NODE]
  | .hngPortStat => [.hngPortStat_STATE, .hngPortStat_CAUSE, .hngPortStat_PEER_NODE, .hngPortStat_PEER_PORT, .hngPortStat_WORST_LANE, .hngPortStat_LINK_DOWNS, .hngPortStat_RETRIES]
  | .hngRetireCfg => [.hngRetireCfg_LANE_LIMIT, .hngRetireCfg_RETRY_LIMIT]
  | .hngDrrCfg => [.hngDrrCfg_W_REDUCE, .hngDrrCfg_W_RESP, .hngDrrCfg_W_REQ]
  | .hngTimeStat => [.hngTimeStat_LOCKED, .hngTimeStat_ROOT, .hngTimeStat_HOPS, .hngTimeStat_UPSTREAM, .hngTimeStat_LAST_CORR, .hngTimeStat_LOCK_LOSSES]
  | .colSlotStat => [.colSlotStat_RESERVED_SLOTS, .colSlotStat_CLAIMED, .colSlotStat_FREE, .colSlotStat_WAITING, .colSlotStat_WAIT_EVENTS]
  | .colGroupStat => [.colGroupStat_ACTIVE, .colGroupStat_WARD, .colGroupStat_OPEN_OPS, .colGroupStat_HELD_X, .colGroupStat_HELD_Y, .colGroupStat_HELD_Z, .colGroupStat_FAULTS]
  | .hostEcnCfg => [.hostEcnCfg_PRIO, .hostEcnCfg_ECN_EN, .hostEcnCfg_PERIOD_US, .hostEcnCfg_STEP_GBPS, .hostEcnCfg_MIN_GBPS, .hostEcnCfg_GSHIFT]
  | .hostMgmtStat => [.hostMgmtStat_NEXT_SEQ, .hostMgmtStat_REJECTED]
  | .hostPortStat => [.hostPortStat_LINK, .hostPortStat_LINK_DOWNS, .hostPortStat_REJECTS, .hostPortStat_DOORBELL_ERR]
  | .wrdPolicy => [.wrdPolicy_FRAME_QUOTA, .wrdPolicy_QP_QUOTA, .wrdPolicy_GROUP_QUOTA, .wrdPolicy_CL_MIN, .wrdPolicy_CL_MAX, .wrdPolicy_POWER_FRAC, .wrdPolicy_BW_FRAC, .wrdPolicy_BW_FIXED, .wrdPolicy_ACTIVE, .wrdPolicy_EXPERT_UNLOCK]
  | .secStat => [.secStat_DEVICE_ID, .secStat_IDENTITY, .secStat_OWNER, .secStat_BOOT_SLOT, .secStat_FALLBACK, .secStat_UPDATE_PENDING]
  | .clkClusterStat => [.clkClusterStat_FREQ, .clkClusterStat_TARGET, .clkClusterStat_DUTY, .clkClusterStat_VOLT_MV, .clkClusterStat_LIMIT, .clkClusterStat_STRETCH, .clkClusterStat_STRETCHES]
  | .clkClusterCfg => [.clkClusterCfg_FMAX, .clkClusterCfg_HOLD]
  | .pwrCfg => [.pwrCfg_WINDOW, .pwrCfg_WEIGHT_SRC, .pwrCfg_COMPUTE_RESERVE_W, .pwrCfg_MEM_LIMIT_W]
  | .pwrWeight => [.pwrWeight_WEIGHT]
  | .pwrCap => [.pwrCap_WATTS]
  | .pwrStat => [.pwrStat_EST_W, .pwrStat_COMPUTE_W, .pwrStat_LINK_W, .pwrStat_MEM_W, .pwrStat_FIXED_W, .pwrStat_THERM_ALERT, .pwrStat_CAP_UNMET, .pwrStat_HBM_LIMITED, .pwrStat_CAL_OK]
  | .pwrDroopCfg => [.pwrDroopCfg_HOLD_CYCLES, .pwrDroopCfg_THRESH_MV]
  | .pwrThermCfg => [.pwrThermCfg_ALERT_C, .pwrThermCfg_TARGET_C]
  | .pwrThermStat => [.pwrThermStat_HOTTEST, .pwrThermStat_SENSOR, .pwrThermStat_LIMITED_WINDOWS]
  | .wrdEnergy => [.wrdEnergy_TOTAL, .wrdEnergy_LAST_STEP, .wrdEnergy_LAST_BUDGET_W]
  | .clkStepCfg => [.clkStepCfg_SYNC_EN, .clkStepCfg_LENGTH_US]
  | .clkStepStat => [.clkStepStat_STEP_COUNT, .clkStepStat_LAST_ADJ]
  | .clkStepSyncStat => [.clkStepSyncStat_PULLS, .clkStepSyncStat_PUSHES, .clkStepSyncStat_OUTSIDE, .clkStepSyncStat_COINCIDENT]
  | .logStat => [.logStat_HEAD, .logStat_LOST, .logStat_FATAL, .logStat_ALERT]
  | .logCfg => [.logCfg_CE_LIMIT, .logCfg_NOTIFY_EN, .logCfg_ALERT_SEV]
  | .logFilter => [.logFilter_EN, .logFilter_FILTER_WARD]
  | .auvSeq => [.auvSeq_SEQ]
  | .jrnStat => [.jrnStat_EPOCH, .jrnStat_FILL_KIB, .jrnStat_RECOVERY, .jrnStat_REGION, .jrnStat_COMPACTING, .jrnStat_ERASE_BUSY, .jrnStat_SHUTDOWN_DONE, .jrnStat_WRITE_ERR]
  | .jrnCtl => [.jrnCtl_APPEND, .jrnCtl_SHUTDOWN]
  | .jrnCfg => [.jrnCfg_PERIOD_MIN]
  | .sysStartStat => [.sysStartStat_STATE, .sysStartStat_STEP, .sysStartStat_ENABLED, .sysStartStat_GRADE, .sysStartStat_WAITING, .sysStartStat_CAUSE, .sysStartStat_READY_MS]
  | .sysCoreMap => [.sysCoreMap_MAP]
  | .sysRestart => [.sysRestart_KIND]
  | .sysTime => [.sysTime_TIME]
  | .sysTimeRaw => [.sysTimeRaw_RAW]
  | .sysTimeOffset => [.sysTimeOffset_OFFSET]
  | .memCapacity => [.memCapacity_TOTAL_FRAMES, .memCapacity_FREE_FRAMES, .memCapacity_LENT_FRAMES]
  | .hostQp0Cfg => [.hostQp0Cfg_PEER_GID, .hostQp0Cfg_PEER_QPN, .hostQp0Cfg_SEND_PSN, .hostQp0Cfg_RECV_PSN, .hostQp0Cfg_KEY, .hostQp0Cfg_MTU, .hostQp0Cfg_DSCP, .hostQp0Cfg_PEER_MAC, .hostQp0Cfg_TIMEOUT_EXP, .hostQp0Cfg_EC_LOG2, .hostQp0Cfg_CQ_ADDR, .hostQp0Cfg_CQ_RKEY, .hostQp0Cfg_STATE, .hostQp0Cfg_CFG_ERR, .hostQp0Cfg_DROP, .hostQp0Cfg_CONNECT]
  | .logEntry => []
  | .auvImage => []

/-- Width of a field in bits. -/
def Fld.width (f : Fld) : Nat := f.info.hi + 1 - f.info.lo

/-- Key of a field of one unit in the map of register fields. -/
def Fld.key (f : Fld) (i : Nat) : Nat := f.ctorIdx * 2 ^ 16 + i % 2 ^ 16

/-- Which die windows hold a register (the column Windows of Table 19.2). -/
inductive Wins where
  | io0 | io1 | ios | cdie | all | hport | eport
deriving DecidableEq, Repr

/-- One row of Table 19.2: windows, offset, stride, units in the largest window, 64-bit words. -/
structure RegLoc where
  wins : Wins
  base : Nat
  stride : Nat
  count : Nat
  words : Nat
deriving DecidableEq, Repr

/-- Table 19.2. -/
def Reg.loc : Reg → RegLoc
  | .sysContract => ⟨.io0, 0x0, 0, 1, 1⟩
  | .schPlan => ⟨.cdie, 0x110000, 0, 1, 1⟩
  | .schHandoverStat => ⟨.cdie, 0x110008, 0, 1, 1⟩
  | .sysExpertCtl => ⟨.io0, 0x8, 0, 1, 1⟩
  | .coreExcRecord => ⟨.cdie, 0x130000, 16, 48, 2⟩
  | .wrdExcCount => ⟨.io0, 0x80020, 64, 512, 1⟩
  | .engStat => ⟨.cdie, 0x120000, 8, 48, 1⟩
  | .kvpWardCfg => ⟨.io0, 0x90000, 16, 512, 1⟩
  | .kvpWardStat => ⟨.io0, 0x90008, 16, 512, 1⟩
  | .expPortCfg => ⟨.io1, 0xD0080, 8, 4, 1⟩
  | .expPartnerCfg => ⟨.io1, 0xD1000, 8, 256, 1⟩
  | .expPartnerStat => ⟨.io1, 0xD1800, 8, 256, 1⟩
  | .expKeywayLoad => ⟨.io1, 0xD0000, 0, 1, 2⟩
  | .expKeywayStat => ⟨.io1, 0xD0040, 0, 1, 1⟩
  | .memSramStat => ⟨.all, 0x40008, 0, 1, 1⟩
  | .hbmErrStat => ⟨.cdie, 0x100000, 0, 1, 1⟩
  | .hbmScrubCfg => ⟨.cdie, 0x100008, 0, 1, 1⟩
  | .hbmPcMap => ⟨.cdie, 0x100010, 0, 1, 1⟩
  | .memLend => ⟨.io0, 0x40100, 8, 8, 1⟩
  | .hngTorusCfg => ⟨.io0, 0x50000, 0, 1, 1⟩
  | .hngPortStat => ⟨.hport, 0x50100, 8, 6, 1⟩
  | .hngRetireCfg => ⟨.ios, 0x50010, 0, 1, 1⟩
  | .hngDrrCfg => ⟨.ios, 0x50018, 0, 1, 1⟩
  | .hngTimeStat => ⟨.io0, 0x50008, 0, 1, 1⟩
  | .colSlotStat => ⟨.ios, 0x60000, 0, 1, 1⟩
  | .colGroupStat => ⟨.io0, 0x60100, 8, 64, 1⟩
  | .hostEcnCfg => ⟨.eport, 0x70108, 16, 5, 1⟩
  | .hostMgmtStat => ⟨.io0, 0x70000, 0, 1, 1⟩
  | .hostPortStat => ⟨.eport, 0x70100, 16, 5, 1⟩
  | .wrdPolicy => ⟨.io0, 0x80000, 64, 512, 2⟩
  | .secStat => ⟨.io0, 0x10000, 0, 1, 1⟩
  | .clkClusterStat => ⟨.cdie, 0x20100, 16, 6, 1⟩
  | .clkClusterCfg => ⟨.cdie, 0x20108, 16, 6, 1⟩
  | .pwrCfg => ⟨.io0, 0x30008, 0, 1, 1⟩
  | .pwrWeight => ⟨.all, 0x30100, 8, 48, 1⟩
  | .pwrCap => ⟨.io0, 0x30000, 0, 1, 1⟩
  | .pwrStat => ⟨.io0, 0x30010, 0, 1, 1⟩
  | .pwrDroopCfg => ⟨.cdie, 0x30028, 0, 1, 1⟩
  | .pwrThermCfg => ⟨.io0, 0x30018, 0, 1, 1⟩
  | .pwrThermStat => ⟨.io0, 0x30020, 0, 1, 1⟩
  | .wrdEnergy => ⟨.io0, 0x80010, 64, 512, 2⟩
  | .clkStepCfg => ⟨.io0, 0x20000, 0, 1, 1⟩
  | .clkStepStat => ⟨.io0, 0x20008, 0, 1, 1⟩
  | .clkStepSyncStat => ⟨.io0, 0x20010, 0, 1, 1⟩
  | .logStat => ⟨.io0, 0xC0000, 0, 1, 1⟩
  | .logCfg => ⟨.io0, 0xC0008, 0, 1, 1⟩
  | .logFilter => ⟨.io0, 0xC0010, 0, 1, 1⟩
  | .auvSeq => ⟨.io0, 0xA0000, 0, 1, 1⟩
  | .jrnStat => ⟨.io0, 0xB0000, 0, 1, 1⟩
  | .jrnCtl => ⟨.io0, 0xB0008, 0, 1, 1⟩
  | .jrnCfg => ⟨.io0, 0xB0010, 0, 1, 1⟩
  | .sysStartStat => ⟨.io0, 0x10, 0, 1, 1⟩
  | .sysCoreMap => ⟨.io0, 0x20, 0, 1, 3⟩
  | .sysRestart => ⟨.io0, 0x40, 0, 1, 1⟩
  | .sysTime => ⟨.io0, 0x48, 0, 1, 1⟩
  | .sysTimeRaw => ⟨.io0, 0x50, 0, 1, 1⟩
  | .sysTimeOffset => ⟨.io0, 0x58, 0, 1, 1⟩
  | .memCapacity => ⟨.io0, 0x40000, 0, 1, 1⟩
  | .hostQp0Cfg => ⟨.io0, 0x70040, 0, 1, 8⟩
  | .logEntry => ⟨.io0, 0x200000, 32, 4096, 4⟩
  | .auvImage => ⟨.io0, 0xA1000, 0, 1, 424⟩

/-- The registers in the order of Table 19.2. -/
def Reg.all : List Reg :=
  [.sysContract, .sysExpertCtl, .sysStartStat, .sysCoreMap, .sysRestart, .sysTime, .sysTimeRaw, .sysTimeOffset, .secStat, .clkStepCfg, .clkStepStat, .clkStepSyncStat, .clkClusterStat, .clkClusterCfg, .pwrCap, .pwrCfg, .pwrStat, .pwrThermCfg, .pwrThermStat, .pwrDroopCfg, .pwrWeight, .memCapacity, .memSramStat, .memLend, .hngTorusCfg, .hngTimeStat, .hngRetireCfg, .hngDrrCfg, .hngPortStat, .colSlotStat, .colGroupStat, .hostMgmtStat, .hostQp0Cfg, .hostPortStat, .hostEcnCfg, .wrdPolicy, .wrdEnergy, .wrdExcCount, .kvpWardCfg, .kvpWardStat, .auvSeq, .auvImage, .jrnStat, .jrnCtl, .jrnCfg, .logStat, .logCfg, .logFilter, .expKeywayLoad, .expKeywayStat, .expPortCfg, .expPartnerCfg, .expPartnerStat, .hbmErrStat, .hbmScrubCfg, .hbmPcMap, .schPlan, .schHandoverStat, .engStat, .coreExcRecord, .logEntry]

/-- The unit that a die's copy or array position k of a register names; none where that die does not hold it.
Dies are counted IO0 = 0, IO1 = 1, C-die d = 2 + d (Table 19.1). -/
def Reg.unit (r : Reg) (die k : Nat) : Option Nat :=
  let l := r.loc
  if l.count ≤ k then none else
  match l.wins with
  | .io0 => if die = 0 then some k else none
  | .io1 => if die = 1 then some k else none
  | .ios => if die < 2 then some die else none
  | .cdie => if 2 ≤ die ∧ die < 6 then some ((die - 2) * l.count + k) else none
  | .all =>
    if r = .pwrWeight then (if k < (if die < 2 then 20 else 48) ∧ die < 6 then some (die * 64 + k) else none)
    else if die < 6 then some die else none
  | .hport => if (die = 0 ∧ k < 4) ∨ (die = 1 ∧ 4 ≤ k) then some k else none
  | .eport => if (die = 0 ∧ k = 0) ∨ (die = 1 ∧ 1 ≤ k) then some k else none

/-- The register, position and word that an offset within a die window names (R440). -/
def Reg.atOffset (off : Nat) : Option (Reg × Nat × Nat) :=
  Reg.all.findSome? fun r =>
    let l := r.loc
    if off < l.base then none else
    let d := off - l.base
    let k := if l.stride = 0 then 0 else d / l.stride
    let w := (if l.stride = 0 then d else d % l.stride) / 8
    if k < l.count ∧ w < l.words then some (r, k, w) else none

/-- What an offset within CSR space names: the register, its unit and the word (R439, R440). -/
def Reg.atCsr (off : Nat) : Option (Reg × Nat × Nat) :=
  match Reg.atOffset (off % 2 ^ 24) with
  | none => none
  | some (r, k, w) => (r.unit (off / 2 ^ 24) k).map fun u => (r, u, w)

end Sys2Proof.Machine
end

