-- ==== Sys2Proof/Machine/Smap.lean ====
section
/-! DEFINITION. Sparse maps: a list of key and value pairs in one canonical form (keys strictly rising, no entry
equal to the default), so that equal maps are equal data. Memory, the register fields and the accumulators use it. -/
namespace Sys2Proof.Machine

/-- Keys strictly rising, no listed value equal to the default d, every key above lo. -/
def Smap.wfFrom {β : Type} [DecidableEq β] (d : β) : Nat → List (Nat × β) → Bool
  | _, [] => true
  | lo, (k, v) :: m => decide (lo ≤ k) && decide (v ≠ d) && Smap.wfFrom d (k + 1) m

/-- The canonical form. -/
def Smap.wf {β : Type} [DecidableEq β] (d : β) (m : List (Nat × β)) : Bool := Smap.wfFrom d 0 m

/-- The value at key k, the default where none is listed. -/
def Smap.get {β : Type} (d : β) : List (Nat × β) → Nat → β
  | [], _ => d
  | (k, v) :: m, x => if x = k then v else if x < k then d else Smap.get d m x

/-- The map with value w at key x, in canonical form. -/
def Smap.put {β : Type} [DecidableEq β] (d : β) : List (Nat × β) → Nat → β → List (Nat × β)
  | [], x, w => if w = d then [] else [(x, w)]
  | (k, v) :: m, x, w =>
    if x = k then (if w = d then m else (x, w) :: m)
    else if x < k then (if w = d then (k, v) :: m else (x, w) :: (k, v) :: m)
    else (k, v) :: Smap.put d m x w

/-- The map with the default at every key of [lo, lo + n). -/
def Smap.clear {β : Type} (m : List (Nat × β)) (lo n : Nat) : List (Nat × β) :=
  m.filter fun kv => !(decide (lo ≤ kv.1) && decide (kv.1 < lo + n))

/-- The entries with keys in [lo, lo + n). -/
def Smap.within {β : Type} (m : List (Nat × β)) (lo n : Nat) : List (Nat × β) :=
  m.filter fun kv => decide (lo ≤ kv.1) && decide (kv.1 < lo + n)

/-- The map with several entries written in order. -/
def Smap.putAll {β : Type} [DecidableEq β] (d : β) (m : List (Nat × β)) (l : List (Nat × β)) : List (Nat × β) :=
  l.foldl (fun a kv => Smap.put d a kv.1 kv.2) m

end Sys2Proof.Machine
end

