-- ==== Sys2Proof/Machine/State.lean ====
section
/-! DEFINITION. The state of the block: every register field, memory, buffer, queue, counter, mode and pin that the
spec gives it, as plain data, and the state right after reset. -/
namespace Sys2Proof.Machine

/-- Why the machine stops. -/
inductive Fault where
  /-- Raised by POWER_ON when the supplies rise in an order that R422 and R459 do not allow; the spec gives the
  device no behaviour then. Safe: the machine stops. -/
  | supplyOrder
deriving DecidableEq, Repr

/-- Why a command is refused. -/
inductive Refusal where
  /-- Raised by exec for a command that has no meaning yet. Safe: nothing happens. -/
  | notModelled (mnemonic : String)
deriving DecidableEq, Repr

/-! ### Cores -/

/-- Where a core stands (R52, R55, R115). -/
inductive Phase where
  | idle | running | waiting | stopping | stopped | saved
deriving DecidableEq, Repr

/-- The tile that a core runs (R32, R34, R62). `home` and `seat` number, in units of 2 MiB of the global address space,
the core memory where the tile began and that of the core which runs it now (R56); `replayed` names the cores on which
it has been replayed (R114, R115). -/
structure TileCtx where
  ward : Nat := 0
  req : Nat := 0
  task : Nat := 0
  taskId : Nat := 0
  idx : Nat := 0
  kp : Nat := 0
  tn : Nat := 0
  tm : Nat := 0
  b : Nat := 0
  splitK : Nat := 1
  seed : Word := 0
  trap : Bool := false
  unlocked : Bool := false
  waitLimit : Nat := 100
  stream : Nat := 0
  home : Nat := 0
  seat : Nat := 0
  replayed : List Nat := []
deriving DecidableEq, Repr

/-- Where a range of bytes lies once its address is translated (R23 to R26, R251). -/
inductive Loc where
  | phys (a : Nat)
  | remote (node a : Nat)
  | window (node win off : Nat)
deriving DecidableEq, Repr

/-- One output of a tile, held until END releases it (R35, R145, R280). -/
inductive Held where
  | write (l : Loc) (data : List Byte) (poison : Bool)
  | signal (l : Loc) (inc : Nat)
  | deliver (group optag j first count : Nat)
deriving DecidableEq, Repr

/-- The open deferred area of a tile (R136, R137): address, shape, the 64-column blocks covered, the flags of
zero sign per element and how often. -/
structure Deferred where
  addr : Nat := 0
  rows : Nat := 0
  cols : Nat := 0
  covered : List Nat := []
  sigma : List Bool := []
deriving DecidableEq, Repr

/-- What a core waits for (R52, R185, R187, R278). -/
inductive Waiting where
  | signal (addr : Nat) (value : Nat)
  | scatter (table : Nat)
  | trunc (table : Nat)
  | opening
deriving DecidableEq, Repr

/-- One remote operation outstanding at its issuer (R17, R50, R246 to R250): where its answer goes, the move it is
part of, the signal that follows the move's last operation, the task and tile it belongs to and its place in the tile's
program order (R310), and the blocks of core memory that it reads and writes (R322). -/
structure RemoteOp where
  pseq : Nat := 0
  node : Nat := 0
  op : Nat := 0
  src : Nat := 0
  via : Loc := .phys 0
  dst : Loc := .phys 0
  len : Nat := 0
  rd : Nat := 0
  sig : Option (Loc × Nat) := none
  mv : Nat := 0
  task : Nat × Nat := (0, 0)
  tile : Nat := 0
  ord : Nat := 0
  reads : List Nat := []
  writes : List Nat := []
deriving DecidableEq, Repr

/-- An engine: generation tag of its last pass, the two stationary registers, the blocks in its two staging banks, the
tags of rows within residency, and whether the next pass's block is in its register already (R98, R105, R106). -/
structure Engine where
  tag : Nat := 0
  regs : List (List Cof) := [[], []]
  staged : List (List Cof) := []
  rows : List Nat := []
  copied : Bool := false
deriving DecidableEq, Repr

/-- A chain program with its operands read, ready to run over its region (R123 to R135): what an EPI or KVA reads
when it leaves its queue. Operand tables are sparse maps keyed by selector x 2^24 + element. -/
structure ChainJob where
  chain : List Nat := []
  slotted : Bool := false
  rows : Nat := 0
  cols : Nat := 0
  dcol : Nat := 0
  acc : List Acc := []
  acc2 : List Acc := []
  scalars : List (Nat × Word) := []
  tensors : List (Nat × Num) := []
  rsv : List Wide := []
  rsa : List Wide := []
deriving DecidableEq, Repr

/-- What remains to do for a tile whose SPLIT_K partials are combined later (R36): the instruction, its registers
and its job. -/
inductive PartialKind where
  | epi (w : EpiWord)
  | kva (w : KvaWord)
deriving DecidableEq, Repr

/-- One recorded partial (R36): the instruction with its operands and the tumbler streams as they stand there (R80);
`block` is the append block of a KVA. -/
structure Partial where
  kp : Nat := 0
  core : Nat := 0
  kind : PartialKind := .epi {}
  job : ChainJob := {}
  tregs : List (Nat × BitVec 256) := []
  sregs : List (Nat × Word) := []
  streams : List (Nat × Word) := []
  block : List Byte := []
deriving DecidableEq, Repr

/-- A read reference that a walk of the tile holds: the ward, the page table and the entry's address (R191). -/
structure PageRef where
  ward : Nat := 0
  table : Nat := 0
  entry : Nat := 0
deriving DecidableEq, Repr

/-- A part of a split attention head that a tile has computed (R162): the instruction, its OUT descriptor, the
addresses of STAT, of the merge header and of the signal word, rows, dimension and part count. -/
structure AttnMerge where
  w : AttnWord := {}
  out : BitVec 256 := 0
  stat : Nat := 0
  header : Nat := 0
  sig : Nat := 0
  m : Nat := 0
  d : Nat := 0
  parts : Nat := 1
deriving DecidableEq, Repr

/-- One core (Table 2.6, R45, R121 to R124, R55, R115). Registers and accumulators are sparse maps with default 0.
`issued` counts the instructions issued since the tile began; `accHeld` tells that an attention instruction of the tile
holds the accumulators of every engine (R321). -/
structure Core where
  phase : Phase := .idle
  tile : Option TileCtx := none
  pc : Nat := 0
  s : List (Nat × Word) := []
  v : List (Nat × Lane) := []
  t : List (Nat × BitVec 256) := []
  acc : List (Nat × Acc) := []
  slots : List (List Nat) := [[], [], [], []]
  streams : List (Nat × Word) := []
  status : Nat := 0
  held : List Held := []
  blocks : List Nat := []
  deferred : Option Deferred := none
  partials : List Partial := []
  refs : List PageRef := []
  touched : List Nat := []
  walked : Option (Nat × List (Nat × Nat)) := none
  merges : List AttnMerge := []
  wait : Option Waiting := none
  replays : Nat := 0
  ops : List RemoteOp := []
  issued : Nat := 0
  accHeld : Bool := false
  engines : List Engine := [{}, {}, {}, {}]
  excTask : Option (Nat × Nat) := none
deriving DecidableEq, Repr

/-- What is wrong with a stored word: the poison bit (R230, R236) and pending flips (R229, R234). -/
structure WordMark where
  poison : Bool := false
  flips : BitVec 92 := 0
deriving DecidableEq, Repr

/-- The contents of a save image (R55, R56): the ward, the part of its save area that holds the image, the core's state
and core memory by offset. -/
structure SaveImage where
  id : Nat := 0
  area : Nat := 0
  ward : Nat := 0
  core : Core := {}
  mem : List (Nat × Byte) := []
  marks : List (Nat × WordMark) := []
deriving DecidableEq, Repr

/-- Where a cluster stands in a handover (R41, R42). -/
inductive Handover where
  | none | planned | stopping | cleared
deriving DecidableEq, Repr

/-- Where a cluster stands in a supply droop (R376, R377). -/
inductive Droop where
  | none | stretched | recovering
deriving DecidableEq, Repr

/-- One cluster (R11, R40 to R42, R362, R376, R382, R397). `next` is the ward of the coming step once planned,
`outgoing` the ward that a handover takes the cluster from, `incoming` the one that gets it after a late handover;
`clears` the cores whose exception records are cleared once its CCLK runs (R441), `earlier` the ward that held the cluster when the estimation
window began, where that has changed since; `points` the frequency codes that it has left in this window, each with the
raw time at which it left; `wiped` whether it has been cleared in this window (R345, R382). -/
structure Cluster where
  ward : Option Nat := none
  next : Option (Option Nat) := none
  handover : Handover := .none
  outgoing : Option Nat := none
  incoming : Option Nat := none
  boundaryPassed : Bool := false
  seenAt : Nat := 0
  excluded : Bool := false
  droop : Droop := .none
  points : List (Nat × Nat) := []
  wiped : Bool := false
  clears : List Nat := []
  earlier : Option (Option Nat) := none
deriving DecidableEq, Repr

/-! ### Requests and tasks -/

/-- Where a task stands (R33, R37, R54). -/
inductive TaskPhase where
  | waiting | dispatched | complete | faulted | cancelled
deriving DecidableEq, Repr

/-- A task (Table 2.2, R32 to R37). Its descriptor is read at dispatch. `faultOrd` is the place of the faulted
instruction in the program order of its tile (R310). -/
structure Task where
  addr : Nat := 0
  phase : TaskPhase := .waiting
  read : Bool := false
  desc : List Word := []
  unlocked : Bool := false
  nextTile : Nat := 0
  returned : List Nat := []
  released : List Nat := []
  parts : List (Nat × List Partial) := []
  combined : List Nat := []
  ignored : Bool := false
  merged : List (Nat × Nat) := []
  cleared : List Nat := []
  fault : Nat := 0
  faultTile : Nat := 0
  faultOrd : Nat := 0
  status : List (Nat × Nat) := []
  excludedCores : List (Nat × Nat) := []
deriving DecidableEq, Repr

/-- Where a request stands (R28, R39, R54, R196). -/
inductive ReqPhase where
  | waiting | running | absent | recomputing | ready
deriving DecidableEq, Repr

/-- A page that a walk of a task found absent (R168): the task, the page table, the layer and the first absent token
position. -/
structure Absent where
  task : Nat := 0
  table : Nat := 0
  layer : Nat := 0
  pos : Nat := 0
deriving DecidableEq, Repr

/-- A request (R28, R38, R333), with the absent pages that its tasks met and how many of them are reported (R168, R196). -/
structure Request where
  id : Nat := 0
  qpn : Nat := 0
  sq : Nat := 0
  tag : Nat := 0
  ward : Nat := 0
  die : Nat := 0
  bucket : Nat := 4
  phase : ReqPhase := .waiting
  tasks : List Task := []
  ntask : Nat := 0
  recompAddr : Nat := 0
  nrecomp : Nat := 0
  rangeRec : Nat := 0
  binding : Option Nat := none
  bindingEnd : Nat := 0
  markerDone : Bool := false
  noCompletion : Bool := false
  began : Nat := 0
  absents : List Absent := []
  reported : Nat := 0
  lastPos : Nat := 0
  lastLayer : Nat := 0
  appended : Bool := false
deriving DecidableEq, Repr

/-- The scheduler of one C-die (R40, R41, R363, R462). `lead` is the handover lead of its latest plan, in SCLK cycles. -/
structure Die where
  claims : List (Nat × Nat) := []
  lastServed : Nat := 511
  lead : Nat := 0
  vdd : Nat := 0
  vddTarget : Nat := 0
  avsPending : Bool := false
  avsTries : Nat := 0
  avsRetry : Bool := false
  ops : List RemoteOp := []
deriving DecidableEq, Repr

/-! ### Wards and memory -/

/-- What a page of ward virtual space names (R26, R239). -/
inductive MapTarget where
  | hbm (a : Nat)
  | lent (node win off : Nat)
deriving DecidableEq, Repr

/-- One mapping of a ward (R239): virtual address, log2 of the page size, permissions and target. -/
structure Mapping where
  va : Nat := 0
  log : Nat := 12
  r : Bool := true
  w : Bool := true
  target : MapTarget := .hbm 0
deriving DecidableEq, Repr

/-- A ward (R339, R340, R344): key, mappings, 4 KiB pages taken of shared frames, the page tables named in the
current step and since the ward began (R194), and the fractions in force. Its policy, counters and energy are
registers. -/
structure Ward where
  id : Nat := 0
  key : BitVec 512 := 0
  maps : List Mapping := []
  deleting : Bool := false
  released : Bool := false
  used4k : List (Nat × List Nat) := []
  stepTables : List Nat := []
  tables : List Nat := []
  powerFrac : Nat := 0
  bwFrac : Nat := 0
  bwFixed : Bool := false
deriving DecidableEq, Repr

/-- Who holds a 2 MiB frame of HBM (R242, R251, R340). -/
inductive FrameUse where
  | free
  | map (w : Nat)
  | save (w : Nat)
  | lend (win : Nat)
  | device
deriving DecidableEq, Repr

/-- One entry of a corrected-row table (R390): row, time of the first correction, and the four latest words with
their times. -/
structure RowEntry where
  row : Nat := 0
  first : Nat := 0
  words : List (Nat × Nat) := []
deriving DecidableEq, Repr

/-- One pseudo-channel (R237, R390, R391, R402). -/
structure PseudoCh where
  rows : List RowEntry := []
  results : Nat := 0
  scrubPos : Nat := 0
  scrubDue : Bool := false
  passDone : Bool := false
  ceLogged : Bool := false
  ceCount : Nat := 0
  ceLast : Nat := 0
  ceWards : List Nat := []
deriving DecidableEq, Repr

/-- The HBM subsystem and on-chip memory health (R233, R238, R242, R393). `onDie` counts the reports of each stack's
on-die ECC (R232). -/
structure Hbm where
  pcs : List (Nat × PseudoCh) := []
  frames : List (Nat × FrameUse) := []
  rotation : List Nat := [0, 0, 0, 0]
  copies : List Nat := []
  rebuilding : Bool := false
  bankErrors : List (Nat × Nat) := []
  slotsRemoved : List Nat := []
  limits : List Nat := [16, 16, 16, 16]
  onDie : List Nat := [0, 0, 0, 0]
deriving DecidableEq, Repr

/-- An UNMAP or PROTECT past its cutover that waits for earlier accesses (R243): the mappings it changed, as they were. -/
structure Cutover where
  ward : Nat := 0
  unmap : Bool := true
  maps : List Mapping := []
deriving DecidableEq, Repr

/-! ### Hinge links -/

/-- What a hinge port sends outside its packet stream: control flits (R267, R268, R437), time flits' announcements
(R266), and the exchanges whose layout the spec does not give (R251, R275). -/
inductive ControlMsg where
  | retry (seq : Nat)
  | retire
  | leave
  | credits (ack vc n : Nat)
  | identity (node port : Nat)
  | announce (a : Announcement)
  | groupDesc (ward w0 w1 : Nat)
  | groupConfirm (g : Nat) (agrees : Bool)
  | windowQuery (window ward size : Nat) (writable : Bool)
  | windowAnswer (dest window : Nat) (ok : Bool)
deriving DecidableEq, Repr

/-- What a packet that waits to leave holds until its last flit is sent: a receive buffer (input port and group of
flits, R263) and a slot of reduction memory (group, axis and slot, R288). -/
structure Hold where
  buf : Option (Nat × Nat) := none
  slot : Option (Nat × Nat × Nat) := none
deriving DecidableEq, Repr

/-- A packet that waits at an output port: its VC, and how many of its bytes have been laid into flits (R261). -/
structure OutPacket where
  vc : Nat := 0
  p : Packet := {}
  off : Nat := 0
  hold : Hold := {}
deriving DecidableEq, Repr

/-- Deficit round-robin (R270, R294, R347): the flow whose turn it is, and the deficits in bytes. -/
structure Drr where
  turn : Nat := 0
  deficit : List (Nat × Nat) := []
deriving DecidableEq, Repr

/-- Received flits of a VC whose buffers are free again once the packets in them have left (R263). -/
structure RxGroup where
  id : Nat := 0
  vc : Nat := 0
  flits : Nat := 0
  left : Nat := 0
deriving DecidableEq, Repr

/-- One hinge port (R259 to R273, R433): its sequence numbers and retry buffer, the packets whose last flit is not
acknowledged (`sent`), credits, the packets that wait with the round-robins and the frame slot that choose among them, the
receive buffers in use (`rx`, with the flits of unfinished packets in `rxOpen`), what the current window counted, and the
time exchange. -/
structure HingePort where
  expect : Nat := 0
  sendSeq : Nat := 0
  ackSeq : Nat := 1023
  retryBuf : List (Nat × Flit) := []
  sent : List (Nat × Nat × Packet) := []
  outFlits : List Flit := []
  retried : Nat := 0
  retrySeq : Nat := 1024
  retries : Nat := 0
  asked : Bool := false
  credits : List Nat := [448, 128, 448, 128, 640, 240]
  toReturn : List Nat := [0, 0, 0, 0, 0, 0]
  downs : List Nat := []
  downCount : Nat := 0
  lanes : List Nat := [0, 0, 0, 0, 0, 0, 0, 0]
  badLane : Nat := 0
  badRetry : Nat := 0
  outPackets : List OutPacket := []
  vcTurn : Drr := {}
  flowTurns : List Drr := [{}, {}, {}, {}, {}, {}]
  slot : Nat := 0
  rx : List RxGroup := []
  rxNext : Nat := 0
  rxOpen : List Nat := [0, 0, 0, 0, 0, 0]
  training : Bool := false
  lastTx : Nat := 0
  lastRx : Nat := 0
  peerRoot : Nat := 0
  peerHops : Nat := 32
  controls : List ControlMsg := []
  partial_ : List (Nat × List Byte) := []
deriving DecidableEq, Repr

/-- A request of this device that has not been answered: destination, PSEQ and output port (R266). -/
structure Flying where
  dest : Nat := 0
  pseq : Nat := 0
  port : Nat := 0
deriving DecidableEq, Repr

/-- The hinge switches and torus time (R264 to R273). Time: whether the device follows a torus time, and ever has; the
offset it follows from, the correction still to be slewed and the raw time since which (R272); the port it follows. -/
structure Hinge where
  ports : List HingePort := [{}, {}, {}, {}, {}, {}]
  linkBad : List (Nat × Nat) := []
  pseq : List (Nat × Nat) := []
  seen : List (Nat × Nat) := []
  flying : List Flying := []
  heldRoutes : List (Nat × List OutPacket) := []
  timeLocked : Bool := false
  everLocked : Bool := false
  lockBase : Int := 0
  slewBy : Int := 0
  slewAt : Nat := 0
  following : Option Nat := none
  timeSent : List (Nat × TimeFlit) := []
deriving DecidableEq, Repr

/-! ### Collectives -/

/-- A completion entry before it is placed in a ring (Table 13.6). -/
structure Completion where
  tag : Nat := 0
  sq : Nat := 0
  status : Nat := 0
  ignored : Bool := false
  faultTask : Nat := 0
  faultTile : Nat := 0
  detail : Nat := 0
  began : Nat := 0
  req : Option Nat := none
  notice : Bool := false
deriving DecidableEq, Repr

/-- Where a group stands (R275, R276). -/
inductive GroupPhase where
  | activating | active | ending
deriving DecidableEq, Repr

/-- An active collective group (Table 11.1, R274 to R276, R288 to R290): its descriptor words, the expert state at
activation, the ports that confirmed and those still waited for, and the slots held and the claims counted on each
axis. -/
structure Group where
  id : Nat := 0
  ward : Nat := 0
  w0 : Nat := 0
  w1 : Nat := 0
  unlocked : Bool := false
  phase : GroupPhase := .activating
  waitPorts : List Nat := []
  held : List Nat := [0, 0, 0]
  claims : List Nat := [0, 0, 0]
  act : Option Completion := none
  deact : Option Completion := none
  actQueue : Nat := 0
deriving DecidableEq, Repr

/-- A chunk staged in reduction memory (R284, R288): axis, chunk and slot; whether its partial has been added; and
when it was staged. -/
structure Staged where
  axis : Nat := 0
  chunk : Nat := 0
  slot : Nat := 0
  poison : Bool := false
  added : Bool := false
  at_ : Nat := 0
deriving DecidableEq, Repr

/-- A chunk's values that wait for staging or for their addition (R282, R284, R291): codes in FP32 before the first
axis, in torus format afterwards. -/
structure ChunkVal where
  axis : Nat := 0
  chunk : Nat := 0
  vals : List Nat := []
  poison : Bool := false
deriving DecidableEq, Repr

/-- An open collective operation (Table 11.2, R278 to R296): its descriptor, the task that opened it, elements
delivered per chunk and contributor, chunks reduced at level 0, values to stage, staged chunks, waiting and granted
claims, chunk-ready packets and early partials, the order read from LIST, chunks landed and signalled, rows dropped, packets on their way
and the waiting times per member. -/
structure ColOp where
  group : Nat := 0
  optag : Nat := 0
  addr : Nat := 0
  desc : List Word := []
  task : Nat × Nat := (0, 0)
  delivered : List (Nat × Nat) := []
  reduced : List Nat := []
  vals : List ChunkVal := []
  staged : List Staged := []
  waiting : List Nat := []
  granted : List Nat := []
  readyIn : List (Nat × Nat) := []
  partials : List ChunkVal := []
  order : Option (List Nat) := none
  landed : List Nat := []
  signalled : Nat := 0
  ovf : List Nat := []
  sentRows : Bool := false
  out : List (Nat × Nat) := []
  pace : List (Nat × Nat) := []
  began : Nat := 0
deriving DecidableEq, Repr

/-- The collective hardware: groups, open operations, occupied slots, neighbours' descriptors heard early (port, ward,
words 0 and 1), and packets of operations that are not open here yet. -/
structure Coll where
  groups : List Group := []
  ops : List ColOp := []
  slots : List (Nat × Nat) := []
  heard : List (Nat × Nat × Nat × Nat) := []
  early : List Packet := []
deriving DecidableEq, Repr

/-! ### Host port, queues and management -/

/-- Queue-pair states (R329). -/
inductive QpState where
  | reset | rts | error
deriving DecidableEq, Repr

/-- An outbound RDMA message (R327, R219): kind 0 WRITE, 1 WRITE with immediate, 2 READ. `tag` says whose it is:
0 completion or notice, 1 quote, 2 page write, 3 marker, 4 host read. -/
structure RdmaOut where
  kind : Nat := 0
  addr : Nat := 0
  rkey : Nat := 0
  data : List Byte := []
  len : Nat := 0
  imm : Nat := 0
  tag : Nat := 0
  binding : Nat := 0
  page : Nat := 0
  entry : Nat := 0
  psn : Nat := 0
deriving DecidableEq, Repr

/-- A queue pair (R328, R329, R334, Table 13.9). Rates are in b/s. The last `unsent` of the messages not acknowledged wait for
their port (R334, R337). -/
structure Qp where
  state : QpState := .reset
  port : Nat := 0
  holder : Nat := 0
  key : Nat := 0
  gid : Nat := 0
  peer : Nat := 0
  sendPsn : Nat := 0
  recvPsn : Nat := 0
  mtu : Nat := 2
  dscp : Nat := 0
  timeout : Nat := 10
  unacked : List RdmaOut := []
  unsent : Nat := 0
  retries : Nat := 0
  rnrWait : Bool := false
  rate : Rat := 800000000000
  target : Rat := 800000000000
  alpha : Rat := 1
  periods : Nat := 0
  lastCnp : Option Nat := none
  cnpsSent : Nat := 0
deriving DecidableEq, Repr

/-- A Gotar queue (R330 to R332, R338); the management queue of queue pair 0 has the same shape. The first `rewrite` of the
held entries have been written once and are written again, in the same places. -/
structure Gotar where
  qpn : Nat := 0
  ward : Nat := 0
  sqBase : Nat := 0
  es : Nat := 16
  cqAddr : Nat := 0
  cqRkey : Nat := 0
  ec : Nat := 16
  die : Nat := 0
  tail : Nat := 0
  taken : Nat := 0
  announced : List (Nat × Nat) := []
  cqHead : Nat := 0
  written : Nat := 0
  waiting : List Completion := []
  heldEntries : List (List Byte) := []
  rewrite : Nat := 0
deriving DecidableEq, Repr

/-- The management command in hand (R335, R336): entry index, code, tag, parameters. -/
structure MgmtCmd where
  index : Nat := 0
  code : Nat := 0
  tag : Nat := 0
  params : List Word := []
  began : Nat := 0
  stage : Nat := 0
  ignored : Bool := false
  data : List Byte := []
deriving DecidableEq, Repr

/-- Addresses of a port (R326, NET_CFG). -/
structure NetAddr where
  mac : Nat := 0
  ip4 : Nat := 0
  ip6 : Nat := 0
deriving DecidableEq, Repr

/-- The host port and the queue front end (R326 to R338). -/
structure HostPort where
  qps : List (Nat × Qp) := []
  queues : List (Nat × Gotar) := []
  mgmtRing : List (Nat × Byte) := []
  mgmt : Option MgmtCmd := none
  cutovers : List (Cutover × MgmtCmd) := []
  out : List (Nat × RdmaOut) := []
  replies : List (Nat × Nat × List Byte) := []
  heldReplies : List (Nat × Nat × List Byte) := []
  paused : List (Nat × Nat) := []
  net : List NetAddr := [{}, {}, {}, {}, {}]
  downs : List (Nat × List Nat) := []
  badWindows : List (Nat × Nat) := []
  notice : Bool := false
  nextReq : Nat := 0
deriving DecidableEq, Repr

/-! ### Export -/

/-- A binding (R208 to R211, R216 to R221). `ends` holds the TARGET_END values whose markers are not all sent, the
one in hand first; `complete` and `delivered` the layers of that one that are complete, in order, and delivered;
`nextLayer` the layer whose marker is sent next; `taken` the entry indices of pages in EXPORTING; `lastAcked` the
largest TARGET_END whose LAST marker is acknowledged and not taken back by a truncation; `unbindEnd` the TARGET_END of the
request that unbinds it, 0 where there is none; `starved` whether a page waits for a grant. -/
structure Binding where
  id : Nat := 0
  ward : Nat := 0
  partner : Nat := 0
  handle : Nat := 0
  table : Nat := 0
  targetEnd : Nat := 0
  unbindEnd : Nat := 0
  markerAddr : Nat := 0
  markerRkey : Nat := 0
  grantCap : Nat := 0
  stateArea : Nat := 0
  failed : Nat := 0
  ended : Bool := false
  ends : List Nat := []
  complete : List Nat := []
  delivered : List Nat := []
  nextLayer : Nat := 0
  markersSent : Nat := 0
  lastAcked : Nat := 0
  taken : List Nat := []
  starved : Bool := false
deriving DecidableEq, Repr

/-- The export engine (R199 to R228). `dropped` holds how many slots a DROPPED page held, by ward and entry (R216). -/
structure Exporter where
  keyways : List (Nat × List Word) := []
  bindings : List Binding := []
  consumed : List (Nat × Nat) := []
  dropped : List (Nat × Nat) := []
  nextBinding : Nat := 0
deriving DecidableEq, Repr

/-! ### Power, steps, log, record, start, sideband -/

/-- The power manager (R363, R366 to R375, R380, R383, R407). `dyn` holds, per cluster and frequency code, the
full-duty dynamic power in mW; `leak` the leakage in mW of the 24 clusters and of the other logic of IO0, IO1 and C0 to
C3, each by degree C and then by frequency code; `volts` each cluster's voltage points in mV; `weights` the calibrated
weights of each die. `thermCap` is the code to which temperature holds each cluster, `limits` the LIMIT codes in force;
`counters` the activity counters of each die in the order of Table 15.3 (R365), `windowAt` the raw time at which the
estimation window began; the values named new reach the clusters with BUDGETS_IN_FORCE. Energies are in 1/16 pJ, budgets in mW. The fields named
sec gather an operating second. -/
structure Power where
  dyn : List (List Nat) := []
  leak : List (List (List Nat)) := []
  weights : List (List Nat) := []
  volts : List (List Nat) := []
  counters : List (List Nat) := List.replicate 2 (List.replicate 20 0) ++ List.replicate 4 (List.replicate 48 0)
  windowAt : Nat := 0
  readings : List Nat := []
  thermCap : List Nat := []
  limits : List Nat := []
  newDuty : List Nat := []
  newTarget : List Nat := []
  newLimits : List Nat := []
  newHbm : List Nat := []
  due : Bool := false
  budgetSum : List (Nat × Rat) := []
  windows : Nat := 0
  stepEnergy : List (Nat × Nat) := []
  totalEnergy : List (Nat × Nat) := []
  unmetStep : Option Nat := none
  windowCode : Nat := 1
  secWindows : Nat := 0
  secEst : Nat := 0
  secMax : Nat := 0
  secTemp : List Nat := []
  secFreq : List Nat := []
deriving DecidableEq, Repr

/-- The step latch and raw time (R384 to R387, R453). `since` counts SCLK from the latest restart of the count, `ran` from
the declared start of the step; `edge` whether STEP_SYNC has come in the cycle of an internal boundary that is not
declared yet; `old` the register fields that a requester's write or a policy has changed in this very cycle, by key, with the
value that each had before (R361, R368, R446), `oldOffset` the offset then in force where that has changed (R453); `planned` names the C-dies that have planned in this step, `unseen` the clusters that have yet to see the boundary. -/
structure StepLatch where
  since : Nat := 0
  ran : Nat := 0
  length : Nat := 400000
  edge : Bool := false
  old : List (Nat × Nat) := []
  oldOffset : Option Int := none
  usedWindow : Bool := false
  declared : Bool := false
  out : Nat := 0
  half : Bool := false
  planned : List Nat := []
  unseen : List Nat := []
deriving DecidableEq, Repr

/-- A trouble-log entry (Table 16.3); CYCLE and SEQ are filled when it is written. `raw` is the raw time of its event. -/
structure LogEntry where
  time : Nat := 0
  raw : Nat := 0
  sev : Nat := 0
  locked : Bool := false
  rep : Bool := false
  source : Nat := 0
  unit : Nat := 0
  ward : Nat := 0xFFFF
  event : Nat := 0
  detail : Nat := 0
deriving DecidableEq, Repr

/-- The trouble log (R401, R402): the ring and the entries that wait to be written. -/
structure TroubleLog where
  ring : List (Nat × List Byte) := []
  queue : List LogEntry := []
deriving DecidableEq, Repr

/-- A record that waits in the journal writer (R413, R415). `done` names what follows once it is written: 0 nothing,
1 the shutdown is done, 2 the management command in hand completes, 4 the device restarts. -/
structure JournalRec where
  type : Nat := 0
  payload : List Byte := []
  done : Nat := 0
deriving DecidableEq, Repr

/-- The Auven record and its journal writer (R406 to R420, R358, R360): the image; the writer's queue; the region in use
(0 A, 1 B), the offset of its next record and the next SEQ; whether appends go on, stopped for want of room (R420), or
closed by a shutdown (R416); blocks still to be erased, and whether a snapshot follows (R418), none is tried any more
(R420), or appends wait for the one that recovery asked for (Table 17.8); what the journal holds of the torus, the owner (the record's bytes) and SVN_HIGH; operating seconds since the last
HISTORY period; corrected words of each stack in this second; CYCLES. -/
structure Journal where
  image : List (Nat × Byte) := []
  queue : List JournalRec := []
  region : Nat := 0
  pos : Nat := 0
  seq : Nat := 0
  usable : Bool := false
  full : Bool := false
  closing : Bool := false
  erasing : List Nat := []
  compactAfter : Bool := false
  noCompact : Bool := false
  firstSnapshot : Bool := false
  torus : Option Nat := none
  owner : Option (List Byte) := none
  svn : Option (List Nat) := none
  sinceHistory : Nat := 0
  ce : List Nat := [0, 0, 0, 0]
  recovered : Bool := false
  cycles : Nat := 0
deriving DecidableEq, Repr

/-- Firmware, identity and attestation (R351 to R360): the keys; the owner's public key and sequence; the five stage records
with their SVNs; the measurement; SEQ of the running slot; random numbers drawn. -/
structure Security where
  identityPriv : List Byte := []
  identityPub : List Byte := []
  storageKey : List Byte := []
  ownerKey : Option (List Byte) := none
  ownerSeq : Nat := 0
  stages : List (List Byte) := []
  svns : List Nat := []
  measurement : List Byte := []
  slotSeq : Nat := 0
  randoms : Nat := 0
  deviceKey : BitVec 512 := 0
deriving DecidableEq, Repr

/-- Where the device stands between supplies and ready report (R422 to R438). -/
inductive StartPhase where
  | off | held | armed | step (n : Nat) | ready | stopped | fatal | tripped
deriving DecidableEq, Repr

/-- Start-up state and pins (R422 to R438, R381, R468). `clocks` tells whether the device's clocks run; `cause` how the
start in progress began; `readyNotice` that queue pair 0's first connection writes the ready notice; `restartWaits` that
an orderly restart waits for FW_UPDATE (R436). -/
structure Boot where
  phase : StartPhase := .held
  pwrGood : Bool := true
  resetN : Bool := false
  thermtrip : Bool := false
  clocks : Bool := false
  cause : Nat := 0
  dieLinksUp : List Bool := [false, false, false, false, false, false, false, false]
  dieLinkDowns : List Nat := [0, 0, 0, 0, 0, 0, 0, 0]
  dieLinkRetries : List Nat := [0, 0, 0, 0, 0, 0, 0, 0]
  readyNotice : Bool := false
  restartWaits : Bool := false
deriving DecidableEq, Repr

/-- Words of one wide register that a requester has staged (R443): the register's offset in CSR space, and the number,
value and mask of each word. -/
structure Staging where
  offset : Nat := 0
  words : List (Nat × Nat × Nat) := []
deriving DecidableEq, Repr

/-- The I3C target (R451, R452): its dynamic address, whether it follows SMBus, enabled events (bit 0 interrupts, bit 3
Hot-Join),
interrupts asked for with their data bytes, whether Hot-Join may still be asked for and has been asked for; the read
pointer and length of the last private write, whether data follows, and its STATUS; what it answered last. -/
structure Sideband where
  addr : Option Nat := none
  smbus : Bool := false
  events : Nat := 9
  ibi : List Nat := []
  mayJoin : Bool := false
  hotJoin : Bool := false
  pointer : Nat := 0
  len : Nat := 0
  reading : Bool := false
  status : Nat := 0
  answer : List Byte := []
  staged : List (Requester × Staging) := []
deriving DecidableEq, Repr

/-- JTAG instructions (R468). -/
inductive JtagIr where
  | bypass | idcode | samplePreload | extest | extestPulse | extestTrain | clamp | highz
deriving DecidableEq, Repr

/-- The JTAG TAP (R468). -/
structure Jtag where
  ir : JtagIr := .idcode
  preload : Nat := 0
  captured : Nat := 0
  driven : Option Nat := none
  hiz : Bool := false
deriving DecidableEq, Repr

end Sys2Proof.Machine
namespace Sys2Proof.Machine

/-- The state of the block. `pending` is the queue of commands; `freeCount` the counter behind the free values
(log entry 2). -/
structure State where
  pending : List Instr
  freeCount : Nat
  csr : List (Nat × Nat)
  mem : List (Nat × Byte)
  marks : List (Nat × WordMark)
  cores : List Core
  clusters : List Cluster
  dies : List Die
  requests : List Request
  images : List SaveImage
  wards : List Ward
  hbm : Hbm
  hinge : Hinge
  coll : Coll
  host : HostPort
  exporter : Exporter
  power : Power
  latch : StepLatch
  log : TroubleLog
  journal : Journal
  flash : List (Nat × Byte)
  sec : Security
  boot : Boot
  side : Sideband
  jtag : Jtag
deriving DecidableEq, Repr

/-- The machine right after reset: supplies within tolerance, PWR_GOOD high, RESET_N low, every register at its
reset value (R450), memory and the queue empty. Values that the spec does not give are those of log entry 3. -/
def State.reset : State where
  pending := []
  freeCount := 0
  csr := []
  mem := []
  marks := []
  cores := List.replicate 192 {}
  clusters := List.replicate 24 {}
  dies := [{}, {}, {}, {}]
  requests := []
  images := []
  wards := []
  hbm := {}
  hinge := {}
  coll := {}
  host := {}
  exporter := {}
  power := {}
  latch := {}
  log := {}
  journal := {}
  flash := []
  sec := {}
  boot := {}
  side := {}
  jtag := {}

end Sys2Proof.Machine
end

