-- ==== Sys2Proof/Machine/Ops.lean ====
section
/-! DEFINITION. The named operations over registers, memory, device time, the trouble log and the Auven record that
every command's meaning uses: R6, R20 to R27, R229 to R240, R389 to R402, R410, R453. -/
namespace Sys2Proof.Machine

/-- What exec and step answer. -/
abbrev Out := Host.Outcome State Fault Refusal

/-- The effect of a command where the state enables it, and the unchanged state where it does not (log entry 1). -/
def Out.when (b : Bool) (s : State) (t : State) : Out := .next (if b then t else s)

/-! ### Register fields -/

/-- A register field of unit i. The map holds each field's difference (exclusive or) from its reset value. -/
def State.rd (s : State) (f : Fld) (i : Nat := 0) : Nat := Smap.get 0 s.csr (f.key i) ^^^ f.info.reset

/-- The state with a register field written; the value keeps the field's width. -/
def State.wr (s : State) (f : Fld) (i : Nat) (v : Nat) : State :=
  { s with csr := Smap.put 0 s.csr (f.key i) ((v % 2 ^ f.width) ^^^ f.info.reset) }

/-- A register field as it stood when the SCLK cycle began, or later where no requester has changed it (R361, R446). -/
def State.was (s : State) (f : Fld) (i : Nat := 0) : Nat :=
  match s.latch.old.find? fun x => decide (x.1 = f.key i) with
  | some x => x.2
  | none => s.rd f i

/-- The state in which a field's value is kept for the rest of the cycle, before its first change in it. -/
def State.keep (s : State) (f : Fld) (i : Nat) : State :=
  if s.latch.old.any fun x => decide (x.1 = f.key i) then s
  else { s with latch := { s.latch with old := (f.key i, s.rd f i) :: s.latch.old } }

/-- n added to a counter that stops at its largest value. -/
def State.bump (s : State) (f : Fld) (i : Nat := 0) (n : Nat := 1) : State :=
  s.wr f i (satN f.width (s.rd f i + n))

/-- A field that is one bit. -/
def State.flag (s : State) (f : Fld) (i : Nat := 0) : Bool := decide (s.rd f i ≠ 0)

/-- Whether expert control is unlocked for the device (R61). -/
def State.unlocked (s : State) : Bool := s.flag .sysExpertCtl_EXPERT_UNLOCK

/-- Whether expert control is unlocked for a ward (R61, R62). -/
def State.unlockedFor (s : State) (w : Nat) : Bool := s.unlocked || s.flag .wrdPolicy_EXPERT_UNLOCK w

/-! ### Device time and free values -/

/-- The offset in force (R453, R272): what a torus time gave, slewed by at most 1 ns for each µs; else the owner's, which a
write changes from the next cycle on. -/
def State.offset (s : State) : Int :=
  let slew : Int := ((s.rd .sysTimeRaw_RAW - s.hinge.slewAt) / 1000 : Nat)
  if let some x := s.latch.oldOffset then x
  else if s.hinge.timeLocked then s.hinge.lockBase + max (-slew) (min slew s.hinge.slewBy) else signed 64 (s.rd .sysTimeOffset_OFFSET)

/-- Device time in ns (R453). -/
def State.time (s : State) : Nat := unsignedOf 64 ((s.rd .sysTimeRaw_RAW : Int) + s.offset)

/-- Raw time in ns (R390, R453). -/
def State.raw (s : State) : Nat := s.rd .sysTimeRaw_RAW

/-- The next free value (log entry 2). -/
def State.free (s : State) : State × Word := ({ s with freeCount := s.freeCount + 1 }, Config.freeWord s.freeCount)

/-- n free bytes. -/
def State.freeBytes : Nat → State → State × List Byte
  | 0, s => (s, [])
  | n + 1, s =>
    let (s, w) := s.free
    let (s, bs) := State.freeBytes n s
    (s, w.truncate 8 :: bs)

/-! ### Units -/

/-- Core i. -/
def State.core (s : State) (i : Nat) : Core := s.cores.getD i {}

/-- The state with core i replaced. -/
def State.setCore (s : State) (i : Nat) (c : Core) : State := { s with cores := s.cores.set i c }

/-- Cluster g. -/
def State.cluster (s : State) (g : Nat) : Cluster := s.clusters.getD g {}

/-- The state with cluster g replaced. -/
def State.setCluster (s : State) (g : Nat) (c : Cluster) : State := { s with clusters := s.clusters.set g c }

/-- The scheduler of C-die d. -/
def State.die (s : State) (d : Nat) : Die := s.dies.getD d {}

/-- The state with the scheduler of C-die d replaced. -/
def State.setDie (s : State) (d : Nat) (x : Die) : State := { s with dies := s.dies.set d x }

/-- The cluster of a core (R11). -/
def clusterOf (i : Nat) : Nat := i / 8

/-- The C-die of a cluster (R11). -/
def dieOf (g : Nat) : Nat := g / 6

/-- Whether self-test enabled core i (R12, SYS_CORE_MAP). -/
def State.enabled (s : State) (i : Nat) : Bool := (s.rd .sysCoreMap_MAP).testBit i

/-- Whether core i may take tiles: enabled and not excluded (R4, R115, R397). -/
def State.usable (s : State) (i : Nat) : Bool :=
  s.enabled i && !s.flag .engStat_EXCLUDED i && !(s.cluster (clusterOf i)).excluded

/-- A record of a list found by a test. -/
def State.ward (s : State) (w : Nat) : Option Ward := s.wards.find? fun x => x.id = w

/-- The state with a ward's record changed. -/
def State.modWard (s : State) (w : Nat) (f : Ward → Ward) : State :=
  { s with wards := s.wards.map fun x => if x.id = w then f x else x }

/-- Whether a ward exists (R340). -/
def State.wardActive (s : State) (w : Nat) : Bool := s.flag .wrdPolicy_ACTIVE w

/-- Request r. -/
def State.req (s : State) (r : Nat) : Option Request := s.requests.find? fun x => x.id = r

/-- The state with a request changed. -/
def State.modReq (s : State) (r : Nat) (f : Request → Request) : State :=
  { s with requests := s.requests.map fun x => if x.id = r then f x else x }

/-- Task t of request r. Recompute tasks follow the request's own. -/
def State.task (s : State) (r t : Nat) : Option Task := (s.req r).bind fun x => x.tasks[t]?

/-- The state with a task changed. -/
def State.modTask (s : State) (r t : Nat) (f : Task → Task) : State :=
  s.modReq r fun x => { x with tasks := x.tasks.modify t f }

/-! ### The address map -/

/-- Table 1.7: what a local address names, with the offset in it. -/
inductive Region where
  | ward (va : Nat)
  | hbm (off : Nat)
  | core (i off : Nat)
  | cluster (g off : Nat)
  | red (io off : Nat)
  | csr (off : Nat)
  | doorbell (q off : Nat)
  | inbox (p off : Nat)
  | reserved
deriving DecidableEq, Repr

def hbmBase : Nat := 0x8000000000000
def coreBase : Nat := 0x8100000000000
def clusterBase : Nat := 0x8100100000000
def redBase : Nat := 0x8100200000000
def csrBase : Nat := 0x8200000000000
def doorbellBase : Nat := 0x8300000000000
def inboxBase : Nat := 0x8300100000000

/-- Table 1.7. -/
def region (a : Nat) : Region :=
  if a < hbmBase then .ward a
  else if a < hbmBase + 0x8000000000 then .hbm (a - hbmBase)
  else if a < coreBase then .reserved
  else if a < coreBase + 0x18000000 then .core ((a - coreBase) / 2 ^ 21) ((a - coreBase) % 2 ^ 21)
  else if a < clusterBase then .reserved
  else if a < clusterBase + 0xC000000 then .cluster ((a - clusterBase) / 2 ^ 23) ((a - clusterBase) % 2 ^ 23)
  else if a < redBase then .reserved
  else if a < redBase + 0x1000000 then .red ((a - redBase) / 2 ^ 23) ((a - redBase) % 2 ^ 23)
  else if a < csrBase then .reserved
  else if a < csrBase + 0x10000000 then .csr (a - csrBase)
  else if a < doorbellBase then .reserved
  else if a < doorbellBase + 0x4000000 then .doorbell ((a - doorbellBase) / 2 ^ 12) ((a - doorbellBase) % 2 ^ 12)
  else if a < inboxBase then .reserved
  else if a < inboxBase + 0x4000000 then .inbox ((a - inboxBase) / 2 ^ 24) ((a - inboxBase) % 2 ^ 24)
  else .reserved

/-- Local address of byte 0 of a core's memory (Table 1.7). -/
def coreAddr (i : Nat) : Nat := coreBase + i * 2 ^ 21

/-- Local address of slot n of an I/O die's reduction memory. -/
def slotAddr (io n : Nat) : Nat := redBase + io * 2 ^ 23 + n * 4096

/-- Stack and pseudo-channel of an HBM offset (R233). -/
def stackOf (off : Nat) : Nat := off / 2 ^ 37
def pcOf (off : Nat) : Nat := off / 2 ^ 32 % 32

/-- Number of a pseudo-channel: stack x 32 + p (Table 16.4). -/
def pcNum (off : Nat) : Nat := off / 2 ^ 32

/-- Whether a pseudo-channel is live (R238). -/
def State.live (s : State) (pc : Nat) : Bool := (s.rd .hbmPcMap_LIVE (pc / 32)).testBit (pc % 32)

/-! ### Stored bytes, without the checks of a reader -/

/-- The stored byte at a local physical address. -/
def State.byte (s : State) (a : Nat) : Byte := Smap.get 0 s.mem a

/-- The stored bytes of a range. -/
def State.peek (s : State) (a n : Nat) : List Byte := (List.range n).map fun i => s.byte (a + i)

/-- The little-endian number of n stored bytes (R6). -/
def State.peekN (s : State) (a n : Nat) : Nat := ofBytes (s.peek a n)

/-- Bytes stored from address a on. -/
def pokeMem (m : List (Nat × Byte)) : Nat → List Byte → List (Nat × Byte)
  | _, [] => m
  | a, b :: bs => pokeMem (Smap.put 0 m a b) (a + 1) bs

/-- The state with bytes stored from address a on. -/
def State.poke (s : State) (a : Nat) (bs : List Byte) : State := { s with mem := pokeMem s.mem a bs }

/-- The state with a little-endian number of n bytes stored. -/
def State.pokeN (s : State) (a n v : Nat) : State := s.poke a (bytesOf n v)

/-- The state with a range of stored bytes zero and sound. -/
def State.zero (s : State) (a n : Nat) : State :=
  { s with mem := Smap.clear s.mem a n, marks := Smap.clear s.marks (a / 8) (ceilDiv n 8) }

/-- The mark of the word that holds address a. -/
def State.mark (s : State) (a : Nat) : WordMark := Smap.get {} s.marks (a / 8)

/-- The state with that mark written. -/
def State.setMark (s : State) (a : Nat) (m : WordMark) : State := { s with marks := Smap.put {} s.marks (a / 8) m }

/-! ### Translation and rights -/

/-- Fault codes of Table 12.17. -/
def cIllegal : Nat := 0x01
def cContract : Nat := 0x02
def cDescriptor : Nat := 0x03
def cLength : Nat := 0x04
def cMisaligned : Nat := 0x05
def cNotLocal : Nat := 0x06
def cUnmapped : Nat := 0x07
def cProtection : Nat := 0x08
def cWardMismatch : Nat := 0x09
def cUnreachable : Nat := 0x0A
def cIndexRange : Nat := 0x0B
def cCapacity : Nat := 0x0C
def cPageAbsent : Nat := 0x0D
def cWaitTimeout : Nat := 0x0E
def cArithTrap : Nat := 0x0F
def cPoison : Nat := 0x10
def cUncorrectable : Nat := 0x11
def cEngineFault : Nat := 0x12
def cPartnerLost : Nat := 0x13
def cNoCredit : Nat := 0x14
def cRemoteAccess : Nat := 0x15

/-- R309: of several failed checks, the code that comes earliest in Table 12.17; 0 where none failed. -/
def firstCode (l : List Nat) : Nat :=
  l.foldl (fun a c => if c = 0 then a else if a = 0 then c else min a c) 0

/-- One check: its code where it fails. -/
def failIf (b : Bool) (c : Nat) : Nat := if b then c else 0

/-- This device's node ID (R23). -/
def State.node (s : State) : Nat := if s.flag .hngTorusCfg_VALID then s.rd .hngTorusCfg_NODE else 0

/-- Whether a node ID lies in the configured torus (R23, R256). -/
def State.inTorus (s : State) (n : Nat) : Bool :=
  if s.flag .hngTorusCfg_VALID then
    decide (n % 16 ≤ s.rd .hngTorusCfg_LX) && decide (n / 16 % 16 ≤ s.rd .hngTorusCfg_LY)
      && decide (n / 256 ≤ s.rd .hngTorusCfg_LZ)
  else decide (n = 0)

/-- The mapping of a ward that covers a virtual address (R239). -/
def Ward.mapping (w : Ward) (va : Nat) : Option Mapping :=
  w.maps.find? fun m => decide (m.va ≤ va) && decide (va < m.va + 2 ^ m.log)

/-- Where a mapping puts a virtual address. -/
def Mapping.loc (m : Mapping) (va : Nat) : Loc :=
  match m.target with
  | .hbm a => .phys (a + (va - m.va))
  | .lent node win off => .window node win (off + (va - m.va))

/-- One access of a ward program to a byte address: the fault code, or where it lies (R23 to R27, R239, R240). The core
memory of a core that self-test did not enable is out of the address map (R4, log entry 130). -/
def State.locate (s : State) (ward : Nat) (a : Nat) (write : Bool) : Nat × Loc :=
  let node := a / 2 ^ 52 % 2 ^ 12
  let la := a % 2 ^ 52
  if node ≠ s.node then (if s.inTorus node then (0, .remote node la) else (cUnreachable, .phys 0))
  else match region la with
  | .ward va =>
    match (s.ward ward).bind (fun w => w.mapping va) with
    | none => (cUnmapped, .phys 0)
    | some m => if (if write then m.w else m.r) then (0, m.loc va) else (cProtection, .phys 0)
  | .core i _ =>
    if s.enabled i = false then (cUnmapped, .phys 0)
    else if (s.cluster (clusterOf i)).ward = some ward then (0, .phys la) else (cWardMismatch, .phys 0)
  | .cluster g _ => if (s.cluster g).ward = some ward then (0, .phys la) else (cWardMismatch, .phys 0)
  | _ => (cUnmapped, .phys 0)

/-- A range cut at 4 KiB boundaries, within which one translation holds: k pieces at most. -/
def pieces4k : Nat → Nat → Nat → List (Nat × Nat)
  | 0, _, _ => []
  | k + 1, a, n => if n = 0 then [] else
    let m := min n (4096 - a % 4096)
    (a, m) :: pieces4k k (a + m) (n - m)

/-- The 4 KiB pieces of a range. -/
def pieces (a n : Nat) : List (Nat × Nat) := pieces4k (n / 4096 + 2) a n

/-- The fault code of a range for a ward program. -/
def State.rangeCode (s : State) (ward a n : Nat) (write : Bool) : Nat :=
  firstCode ((pieces a n).map fun p => (s.locate ward p.1 write).1)

/-! ### The trouble log and the Auven record -/

/-- A 32-bit word of the record image (Table 17.1). -/
def State.img (s : State) (off : Nat) (n : Nat := 4) : Nat :=
  ofBytes ((List.range n).map fun i => Smap.get 0 s.journal.image (off + i))

/-- The state with n bytes of the image written. -/
def State.setImg (s : State) (off n v : Nat) : State :=
  { s with journal := { s.journal with image := pokeMem s.journal.image off (bytesOf n v) } }

/-- A count of the image raised by n; it saturates (R406). -/
def State.bumpImg (s : State) (off : Nat) (n : Nat := 1) : State := s.setImg off 4 (satN 32 (s.img off + n))

/-- One update of the image: AUV_SEQ goes odd and even again (R411). -/
def State.auvUpdate (s : State) : State := s.wr .auvSeq_SEQ 0 (s.rd .auvSeq_SEQ + 2)

/-- A record put into the journal writer's queue of at most 64; nothing after a shutdown (R415, R416). -/
def State.journalPut (s : State) (r : JournalRec) : State :=
  if s.journal.closing ∨ s.journal.usable = false ∨ s.journal.queue.length ≥ 64 then s
  else { s with journal := { s.journal with queue := s.journal.queue ++ [r] } }

/-- The 32 bytes of a log entry numbered n in power cycle cyc (Table 16.3). -/
def LogEntry.encode (e : LogEntry) (cyc n : Nat) : List Byte :=
  bytesOf 8 e.time ++ bytesOf 4 cyc ++ bytesOf 4 n ++
  bytesOf 1 (e.sev + (if e.locked then 4 else 0) + (if e.rep then 8 else 0)) ++ bytesOf 1 e.source ++
  bytesOf 2 e.unit ++ bytesOf 2 e.ward ++ bytesOf 2 e.event ++ bytesOf 8 e.detail

/-- CYCLE of an entry: 0xFFFF_FFFF before the journal is recovered (Table 16.3). -/
def State.cycle (s : State) : Nat := if s.journal.recovered then s.journal.cycles else 0xFFFFFFFF

/-- Image offset of the count that an event raises (Table 17.1). -/
def countOff (event : Nat) : Nat :=
  if event = 0x32 then 0x01C else if event = 0x04 then 0x020 else if event = 0x21 then 0x024
  else if event = 0x06 ∨ event = 0x11 then 0x028 else 0

/-- Severity held in an event slot of the image; none where it is empty (Table 17.4). -/
def State.slotSev (s : State) (k : Nat) : Option Nat :=
  if s.img (0x740 + 48 * k + 36) = 0 then none else some (s.img (0x740 + 48 * k + 16) 1 % 4)

/-- The slot in which R410 places an event of severity sev; none where it is only counted. -/
def State.pickSlot (s : State) (sev : Nat) : Option Nat :=
  match (List.range 32).find? fun k => (s.slotSev k).isNone with
  | some k => some k
  | none =>
    let low := (List.range 32).foldl (fun a k => min a ((s.slotSev k).getD 3)) 3
    if low > sev then none else
    (List.range 32).foldl (fun a k =>
      if s.slotSev k = some low then
        match a with
        | none => some k
        | some j => if s.img (0x740 + 48 * k + 36) < s.img (0x740 + 48 * j + 36) then some k else a
      else a) none

/-- R410, R414, R415: an entry offered to the Auven record: counted, placed, and an EVENT record queued. -/
def State.auvOffer (s : State) (e : LogEntry) (bytes : List Byte) : State :=
  if s.journal.recovered = false then s else
  let s := s.auvUpdate.bumpImg 0x014
  let co := countOff e.event
  let s := if co = 0 then s else s.bumpImg co
  let slot := s.pickSlot e.sev
  let data := bytes ++ bytesOf 4 (s.img 0x004) ++ bytesOf 4 (s.img 0x014) ++ bytesOf 8 0
  let s := match slot with
    | none => s.bumpImg 0x018
    | some k => { s with journal := { s.journal with image := pokeMem s.journal.image (0x740 + 48 * k) data } }
  let payload := bytesOf 4 (slot.getD 0xFFFFFFFF) ++ bytesOf 4 (s.img 0x014) ++ bytesOf 4 (s.img 0x018) ++
    bytesOf 2 co ++ bytesOf 2 0 ++ bytesOf 4 (if co = 0 then 0 else s.img co) ++ bytesOf 4 0 ++
    (if slot.isNone then bytesOf 48 0 else data)
  s.journalPut { type := 0x03, payload := payload }

/-- Whether an entry is offered to the Auven record (R410). -/
def LogEntry.notable (e : LogEntry) : Bool := decide (e.sev = 3) || (decide (e.event = 2) && decide (e.source = 1))

/-- Whether an entry lies before another of its cycle: ascending (SOURCE, UNIT) (R402). -/
def LogEntry.before (a b : LogEntry) : Bool := decide (a.source < b.source) || (decide (a.source = b.source) && decide (a.unit < b.unit))

/-- The waiting entries with one more: those of its own cycle in ascending (SOURCE, UNIT) (R402). -/
def queueEntry (q : List LogEntry) (e : LogEntry) : List LogEntry :=
  let now (x : LogEntry) : Bool := decide (x.raw = e.raw)
  q.filter (fun x => !now x || !e.before x) ++ [e] ++ q.filter fun x => now x && e.before x

/-- R401, R402, R410: an event of the trouble log. Up to 64 entries wait; one that finds the queue full is lost and
counted, and offered to the Auven record all the same; its SEQ, which no log gives it, is a free value (log entry 2). -/
def State.event (s : State) (source unit sev ward event detail : Nat) (rep : Bool := false) : State :=
  let e : LogEntry :=
    { time := s.time, raw := s.raw, sev := sev, locked := s.flag .hngTimeStat_LOCKED, rep := rep, source := source, unit := unit,
      ward := ward, event := event, detail := detail }
  if s.log.queue.length < 64 then { s with log := { s.log with queue := queueEntry s.log.queue e } }
  else
    let (s, w) := (s.bump .logStat_LOST).free
    if e.notable then s.auvOffer e (e.encode s.cycle w.toNat) else s

/-! ### Retirement of pseudo-channels, and HBM results -/

/-- The ward that holds a 2 MiB frame, 0xFFFF where none does (R401). -/
def State.frameWard (s : State) (off : Nat) : Nat :=
  match Smap.get .free s.hbm.frames (off / 2 ^ 21) with
  | .map w => w
  | .save w => w
  | _ => 0xFFFF

/-- The state with a pseudo-channel's record changed. -/
def State.modPc (s : State) (pc : Nat) (f : PseudoCh → PseudoCh) : State :=
  { s with hbm := { s.hbm with pcs := Smap.put {} s.hbm.pcs pc (f (Smap.get {} s.hbm.pcs pc)) } }

/-- A pseudo-channel's record. -/
def State.pc (s : State) (pc : Nat) : PseudoCh := Smap.get {} s.hbm.pcs pc

/-- The frames of a pseudo-channel: numbers and uses listed. -/
def State.pcFrames (s : State) (pc : Nat) : List (Nat × FrameUse) := Smap.within s.hbm.frames (pc * 2048) 2048

/-- A pass over a stack is complete when every live pseudo-channel has ended its own: PASSES counts it, and the next pass
begins (R237). -/
def State.passEnd (s : State) (stack : Nat) : State :=
  let pcs := (List.range 32).map fun p => 32 * stack + p
  if (pcs.any s.live) && pcs.all fun pc => !s.live pc || (s.pc pc).passDone then
    let s := s.wr .hbmScrubCfg_PASSES stack (s.rd .hbmScrubCfg_PASSES stack + 1)
    pcs.foldl (fun s pc => s.modPc pc fun p => { p with passDone := false }) s
  else s

/-- R238, R392, R454: a pseudo-channel is retired: out of LIVE, its frames out of the capacity, one PC_RETIRED
entry and one FRAMES_LOST entry for each ward that held frames in it. -/
def State.retirePc (s : State) (pc cause off : Nat) : State :=
  let used := s.pcFrames pc
  let dev := (used.filter fun f => f.2 = .device).length
  let st := pc / 32
  let s := s.wr .hbmPcMap_LIVE st (s.rd .hbmPcMap_LIVE st - (if s.live pc then 2 ^ (pc % 32) else 0))
  let s := s.wr .memCapacity_TOTAL_FRAMES 0 (s.rd .memCapacity_TOTAL_FRAMES - (2048 - dev))
  let s := s.wr .memCapacity_FREE_FRAMES 0 (s.rd .memCapacity_FREE_FRAMES - (2048 - used.length))
  let s := if dev ≠ 0 ∧ st ∈ s.hbm.copies then
      { s with hbm := { s.hbm with copies := s.hbm.copies.filter fun x => x ≠ st, rebuilding := true } } else s
  let s := (s.event 0x01 pc 3 (s.frameWard off) 0x04 (off % 2 ^ 39 + cause * 2 ^ 60)).passEnd st
  (List.range 512).foldl (fun s w =>
    let n := (used.filter fun f => f.2 = .map w || f.2 = .save w).length
    if n = 0 then s else s.event 0x01 pc 3 w 0x05 n) s

/-- A day in ns (R391). -/
def dayNs : Nat := 86400000000000

/-- R391, R402: a corrected word at an HBM offset. -/
def State.hbmCorrected (s : State) (off : Nat) : State :=
  let pc := pcNum off
  let st := stackOf off
  let t := s.raw
  let s := s.bump .hbmErrStat_CE_COUNT st
  let s := { s with journal := { s.journal with ce := s.journal.ce.modify st (· + 1) } }
  let s := s.modPc pc fun p => { p with rows := p.rows.filter fun r => decide (t ≤ r.first + dayNs) && decide (r.first < t) }
  let row := off % 2 ^ 32 / 1024
  let p := s.pc pc
  let log (s : State) : State :=
    let w := s.frameWard off
    let p := s.pc pc
    if s.flag .logCfg_CE_LIMIT && p.ceLogged then
      s.modPc pc fun p => { p with ceCount := satN 16 (p.ceCount + 1), ceLast := off, ceWards := w :: p.ceWards }
    else (s.modPc pc fun p => { p with ceLogged := true }).event 0x01 pc 1 w 0x01 off
  match p.rows.find? fun r => r.row = row with
  | some r =>
    if r.words.any fun x => decide (x.1 = off) && decide (t ≤ x.2 + dayNs) && decide (x.2 < t) then s.retirePc pc 1 off
    else log (s.modPc pc fun p => { p with rows := p.rows.map fun r =>
      if r.row = row then { r with words := ((off, t) :: r.words).take 4 } else r })
  | none =>
    if p.rows.length ≥ 64 then s.retirePc pc 2 off
    else log (s.modPc pc fun p => { p with rows := p.rows ++ [{ row := row, first := t, words := [(off, t)] }] })

/-- R236, R391, R392: an uncorrectable (addr false) or ADDRESS (addr true) result at an HBM offset. -/
def State.hbmResult (s : State) (off : Nat) (addr : Bool) : State :=
  let pc := pcNum off
  let s := if addr then s.bump .hbmErrStat_ADDR_COUNT (stackOf off) else s.bump .hbmErrStat_UE_COUNT (stackOf off)
  let s := s.modPc pc fun p => { p with results := p.results + 1 }
  if (s.pc pc).results ≥ 2 then s.retirePc pc 3 off
  else s.event 0x01 pc 2 (s.frameWard off) (if addr then 0x03 else 0x02) off

/-! ### The check codes -/

/-- The generator of R234: m1(x) x m3(x) x (x + 1). -/
def bchGen : Nat := 0xC599

/-- Remainder of a polynomial below x^(n+15) modulo the generator. -/
def bchRem : Nat → Nat → Nat
  | 0, x => x
  | n + 1, x => bchRem n (if x.testBit (n + 15) then x ^^^ (bchGen <<< n) else x)

/-- Check bits C[14:0] of data, poison bit and address hash (R234). -/
def bchCheck (d : Nat) (p : Bool) (h : Nat) : Nat :=
  bchRem 77 ((d % 2 ^ 64 + (if p then 2 ^ 64 else 0) + h % 4096 * 2 ^ 65) <<< 15)

/-- The address hash of an HBM offset (R235). -/
def addrHash (a : Nat) : Nat := bits a 14 3 ^^^ bits a 26 15 ^^^ bits a 38 27

/-- The codeword polynomial of a flip pattern: bits [76:0] stand above the 15 check bits (R234). -/
def flipPoly (m : Nat) : Nat := m % 2 ^ 77 * 2 ^ 15 + m / 2 ^ 77

/-- The syndrome of a flip pattern. -/
def syndrome (m : Nat) : Nat := bchRem 77 (flipPoly m)

/-- The syndromes of single flips. -/
def flipSyndromes : List (Nat × Nat) := (List.range 92).map fun i => (i, syndrome (2 ^ i))

/-- A pattern of one or two flips with a syndrome (R234: the code corrects any two). -/
def bchPattern (y : Nat) : Option Nat :=
  match flipSyndromes.find? fun p => p.2 = y with
  | some p => some (2 ^ p.1)
  | none => flipSyndromes.findSome? fun p =>
      (flipSyndromes.find? fun q => decide (p.1 < q.1) && decide (p.2 ^^^ q.2 = y)).map fun q => 2 ^ p.1 + 2 ^ q.1

/-- Table 9.5: what the decoder makes of a word. -/
inductive Decoded where
  | clean (residue : Nat)
  | corrected (residue : Nat)
  | address
  | bad
deriving DecidableEq, Repr

/-- The decoder result for pending flips m (Table 9.5); residue is what stays flipped after the decoder's work. -/
def bchDecode (m : Nat) : Decoded :=
  if m = 0 then .clean 0 else
  let y := syndrome m
  if y = 0 then .clean m else
  match bchPattern y with
  | none => .bad
  | some e => if bits e 76 65 = 0 then .corrected (m ^^^ e) else .address

/-- Number of set bits among the low n. -/
def popcount : Nat → Nat → Nat
  | 0, _ => 0
  | n + 1, x => popcount n x + (if x.testBit n then 1 else 0)

/-- The flips of all eight check bits of an SRAM word, which give the all-ones syndrome (R230). -/
def sramCheckFlips : Nat := 0xFF * 2 ^ 77

/-- Whether the SECDED code reports flips m of an SRAM word as uncorrectable (R229): two always, three or more as
the internal matrix has it (log entry 7). -/
def sramBad (m : Nat) : Bool :=
  let n := popcount 92 m
  decide (m ≠ sramCheckFlips) && (decide (n = 2) || (decide (n ≥ 3) && decide (Config.secdedMany m % 3 = 0)))

/-- Whether an SRAM word is decoded as poison (R230): it is stored with its check bits inverted, or flips give the
all-ones syndrome, as the internal matrix has it (log entry 7). -/
def sramPoisoned (k : WordMark) : Bool :=
  let m := k.flips.toNat
  if m = sramCheckFlips then !k.poison
  else k.poison || (decide (popcount 92 m ≥ 3) && decide (Config.secdedMany m % 3 = 2))

/-! ### Damage, and writes to HBM -/

/-- The damage that a reader meets in the word at local address a: 0, POISON or MEM_UNCORRECTABLE (Table 9.2). -/
def State.wordDamage (s : State) (a : Nat) : Nat :=
  let k := s.mark a
  match region a with
  | .hbm off =>
    if s.live (pcNum off) = false then cPoison else
    match bchDecode k.flips.toNat with
    | .clean r => if k.poison ^^ r.testBit 64 then cPoison else 0
    | .corrected r => if k.poison ^^ r.testBit 64 then cPoison else 0
    | .address => cUncorrectable
    | .bad => cUncorrectable
  | _ => if sramPoisoned k then cPoison else if sramBad k.flips.toNat then cUncorrectable else 0

/-- The words that a range touches: their addresses. -/
def wordsOf (a n : Nat) : List Nat :=
  if n = 0 then [] else (List.range ((a + n - 1) / 8 + 1 - a / 8)).map fun i => (a / 8 + i) * 8

/-- Whether any word of a range carries a mark or lies in a pseudo-channel that is not live. -/
def State.sound (s : State) (a n : Nat) : Bool :=
  (Smap.within s.marks (a / 8) ((a + n + 7) / 8 - a / 8)).isEmpty &&
  (match region a with | .hbm off => s.live (pcNum off) | _ => true)

/-- The damage in a range: the first code of Table 12.17 among its words (Table 9.2). -/
def State.damage (s : State) (a n : Nat) : Nat :=
  if s.sound a n then 0 else firstCode ((wordsOf a n).map s.wordDamage)

/-- The word addresses of a range that lie in it whole. -/
def wholeWords (a n : Nat) : List Nat := (wordsOf a n).filter fun w => decide (a ≤ w) && decide (w + 8 ≤ a + n)

/-- The words of a range that it covers in part. -/
def partWords (a n : Nat) : List Nat := (wordsOf a n).filter fun w => !(decide (a ≤ w) && decide (w + 8 ≤ a + n))

/-- The key under which the frame at an HBM offset is stored (R244): its ward's or the device's; none for a free frame, and
none of this device's for one that is lent (R252). -/
def State.frameKey (s : State) (off : Nat) : Option (BitVec 512) :=
  match Smap.get .free s.hbm.frames (off / 2 ^ 21) with
  | .map w => (s.ward w).map (·.key)
  | .save w => (s.ward w).map (·.key)
  | .device => some s.sec.deviceKey
  | .lend _ => none
  | .free => none

/-- The 64-byte unit at an HBM offset as the stack stores it (R244): encrypted with the tweak A >> 6. `mem` holds what
the frame's owner reads. -/
def State.storedUnit (s : State) (u off : Nat) : List Byte :=
  match s.frameKey off with
  | some key => Config.xtsEncrypt key (off / 64) (s.peek u 64)
  | none => s.peek u 64

/-- The unit at an HBM offset once its stored bytes are those given (R244). -/
def State.openUnit (s : State) (u off : Nat) (bs : List Byte) : State :=
  match s.frameKey off with
  | some key => s.poke u ((List.range 64).map fun i => (Config.xtsDecrypt key (off / 64) bs).getD i 0)
  | none => s.poke u bs

/-- The HBM unit at u with flips in its stored word at byte i. -/
def State.flipStored (s : State) (u off i r : Nat) : State :=
  let bs := s.storedUnit u off
  let word := bytesOf 8 (ofBytes ((bs.drop i).take 8) ^^^ r % 2 ^ 64)
  s.openUnit u off ((List.range 64).map fun j => if i ≤ j ∧ j < i + 8 then word.getD (j - i) 0 else bs.getD j 0)

/-- A stored word with the flips r left in its data, and its poison bit. HBM data is stored encrypted (R244). -/
def State.settleWord (s : State) (a r : Nat) (p : Bool) : State :=
  let t := if r % 2 ^ 64 = 0 then s else
    match region a with
    | .hbm off => s.flipStored (a / 64 * 64) (off / 64 * 64) (a % 64) r
    | _ => s.pokeN a 8 (s.peekN a 8 ^^^ r % 2 ^ 64)
  t.setMark a { poison := p }

/-- What reading the HBM word at a, of offset off, does to the state (Table 9.5, R236, R390 to R392). -/
def State.touchHbm (s : State) (a off : Nat) : State :=
  let k := s.mark a
  let m := k.flips.toNat
  if m = 0 ∨ s.live (pcNum off) = false then s else
  match bchDecode m with
  | .clean r => s.settleWord a r (k.poison ^^ r.testBit 64)
  | .corrected r => (s.settleWord a r (k.poison ^^ r.testBit 64)).hbmCorrected off
  | .address => s.hbmResult off true
  | .bad => (s.settleWord a m true).hbmResult off false

/-- The addresses of the 64-byte units that a range covers. -/
def unitsOf (a n : Nat) : List Nat :=
  if n = 0 then [] else (List.range ((a + n - 1) / 64 + 1 - a / 64)).map fun i => (a / 64 + i) * 64

/-- A write into one 64-byte HBM unit (R238, R245): discarded and counted in a retired pseudo-channel; a partial
write merges, and poisons the whole unit where the read of the merge is uncorrectable. -/
def State.writeUnit (s : State) (a : Nat) (bs : List Byte) : State :=
  match region a with
  | .hbm off =>
    let u := a / 64 * 64
    let ws := (List.range 8).map fun i => u + 8 * i
    if s.live (pcNum off) = false then s.bump .hbmErrStat_UE_COUNT (stackOf off)
    else if bs.length = 64 ∨ s.sound u 64 then
      (if s.sound u 64 then s else ws.foldl (fun s w => s.setMark w {}) s).poke a bs
    else
      let bad := ws.any fun w => s.wordDamage w = cUncorrectable
      let s := ws.foldl (fun s w => s.touchHbm w (off / 64 * 64 + w % 64)) s
      if s.live (pcNum off) = false then s.bump .hbmErrStat_UE_COUNT (stackOf off)
      else if bad then ws.foldl (fun s w => s.setMark w { poison := true }) (s.poke a bs)
      else ((wholeWords a bs.length).foldl (fun s w => s.setMark w {}) s).poke a bs
  | _ => s

/-! ### Page-table entries, read and written at their home -/

/-- The local address of a ward's byte where it lies in this device's memory. -/
def State.home (s : State) (w va : Nat) : Option Nat :=
  match s.locate w va false with
  | (0, .phys a) => some a
  | _ => none

/-- The stored 64-bit word at a ward address, without a reader's checks; 0 where none is mapped. -/
def State.vword (s : State) (w va : Nat) : Nat :=
  match s.home w va with
  | some a => s.peekN a 8
  | none => 0

/-- The state with a ward's 64-bit word stored: in HBM as any write of a part of a unit (R238, R245), in SRAM whole
(R230). -/
def State.setVword (s : State) (w va v : Nat) : State :=
  match s.home w va with
  | none => s
  | some a =>
    match region a with
    | .hbm _ => s.writeUnit a (bytesOf 8 v)
    | _ => (s.pokeN a 8 v).setMark a {}

/-- The damage that an atomic read-modify-write of n bytes at a meets: in the bytes themselves and, in HBM, an
uncorrectable result anywhere in their 64-byte unit (R245, Table 9.2). -/
def State.rmwDamage (s : State) (a n : Nat) : Nat :=
  firstCode [s.damage a n, match region a with
    | .hbm _ => failIf (decide (s.damage (a / 64 * 64) 64 ≠ 0) && (wordsOf (a / 64 * 64) 64).any fun w => s.wordDamage w = cUncorrectable)
        cUncorrectable
    | _ => 0]

/-- The code with which an access to n bytes of control data at a ward address fails (R178, R231, R240): translation,
rights, damage. Data on another node or in a borrowed window is not looked at (log entry 8). -/
def State.controlCode (s : State) (w va n : Nat) (write : Bool) : Nat :=
  firstCode [(s.locate w va false).1, (if write then (s.locate w va true).1 else 0),
    match s.home w va with
    | some a => if write then s.rmwDamage a n else s.damage a n
    | none => 0]

/-- x with bits [hi:lo] replaced by v. -/
def putBits (x hi lo v : Nat) : Nat :=
  x - bits x hi lo * 2 ^ lo + v % 2 ^ (hi + 1 - lo) * 2 ^ lo

/-- Address of pool descriptor p of a ward (R179). -/
def State.poolAddr (s : State) (w p : Nat) : Nat := s.rd .kvpWardCfg_POOLS w * 64 + 64 * p

/-- The code with which a pool's descriptor, or the ring slot that an index names, fails its reader (R231). -/
def State.poolCode (s : State) (w p : Nat) (head : Bool) : Nat :=
  let a := s.poolAddr w p
  let d := firstCode [s.controlCode w a 24 false, s.controlCode w (a + 16) 8 true]
  let cap := bits (s.vword w a) 63 40
  let ht := s.vword w (a + 16)
  if d ≠ 0 ∨ cap = 0 then d
  else s.controlCode w (s.vword w (a + 8) + 8 * ((if head then ht / 2 ^ 32 else ht % 2 ^ 32) % cap)) 8 (!head)

/-- R179, R180: a frame pushed onto its pool; a pool whose control words are damaged takes none (R231). -/
def State.poolPush (s : State) (w p frame : Nat) : State :=
  if s.poolCode w p false ≠ 0 then s else
  let a := s.poolAddr w p
  let cap := bits (s.vword w a) 63 40
  let ht := s.vword w (a + 16)
  let tail := ht % 2 ^ 32
  if cap = 0 then s else
  (s.setVword w (s.vword w (a + 8) + 8 * (tail % cap)) frame).setVword w (a + 16)
    (putBits ht 31 0 ((tail + 1) % 2 ^ 32))

/-- R179, R238: a frame popped from a pool; frames in retired pseudo-channels are discarded. fuel bounds the
frames looked at. With the code of damaged control words (R231). -/
def State.poolPop : Nat → State → Nat → Nat → State × Option Nat × Nat
  | 0, s, _, _ => (s, none, 0)
  | k + 1, s, w, p =>
    let code := s.poolCode w p true
    if code ≠ 0 then (s, none, code) else
    let a := s.poolAddr w p
    let cap := bits (s.vword w a) 63 40
    let ht := s.vword w (a + 16)
    let head := ht / 2 ^ 32
    let tail := ht % 2 ^ 32
    if cap = 0 ∨ head = tail then (s, none, 0) else
    let f := s.vword w (s.vword w (a + 8) + 8 * (head % cap))
    let s := s.setVword w (a + 16) (putBits ht 63 32 ((head + 1) % 2 ^ 32))
    match s.home w f with
    | some pa =>
      match region pa with
      | .hbm off => if s.live (pcNum off) then (s, some f, 0) else State.poolPop k s w p
      | _ => (s, some f, 0)
    | none => (s, some f, 0)

/-- Free frames of a pool (Table 7.4). -/
def State.poolFree (s : State) (w p : Nat) : Nat :=
  let ht := s.vword w (s.poolAddr w p + 16)
  (ht % 2 ^ 32 + 2 ^ 32 - ht / 2 ^ 32) % 2 ^ 32

/-- The pool that an entry's frame came from: the page pool for content in the page format, else the tail pool
(R174, Table 7.2). -/
def framePool (hdr0 entry0 : Nat) : Nat :=
  if bits entry0 53 50 = bits hdr0 12 9 then bits hdr0 6 5 else bits hdr0 4 3

/-- R195: DROP_PG1 lowered to page number j + 1 where that is lower, or none was dropped. -/
def State.lowerDrop (s : State) (w table j : Nat) : State :=
  let w3 := s.vword w (table + 24)
  let d := bits w3 63 47
  if d = 0 ∨ j + 1 < d then s.setVword w (table + 24) (putBits w3 63 47 (j + 1)) else s

/-- The ward virtual address of a frame whose bits [50:6] an entry holds (Table 7.3): on this node. -/
def State.frameVa (s : State) (x : Nat) : Nat := s.node * 2 ^ 52 + x * 64

/-- R195, Table 7.11: an entry becomes DROPPED, its frame returns to its pool and its SCALE is 0 (Table 7.3); how far it
was written is kept for R216. -/
def State.dropEntry (s : State) (w table entry : Nat) : State :=
  let e0 := s.vword w entry
  let e1 := s.vword w (entry + 8)
  let s := s.poolPush w (framePool (s.vword w table) e0) (s.frameVa (bits e1 63 19))
  let s := { s with exporter := { s.exporter with
    dropped := Smap.put 0 s.exporter.dropped (w * 2 ^ 64 + entry) (bits e0 58 54) } }
  let e0 := putBits (putBits (putBits (putBits e0 63 61 5) 58 54 0) 37 37 0) 33 18 0
  ((s.setVword w entry e0).lowerDrop w table (bits e1 18 3)).bump .kvpWardStat_DROPS w

/-- R191: a read reference ends; a damaged page is dropped with its last one (Table 7.11). An entry whose own words are
damaged is not used (R231). -/
def State.releaseRef (s : State) (r : PageRef) : State :=
  if s.controlCode r.ward r.entry 16 false ≠ 0 then s else
  let e0 := s.vword r.ward r.entry
  let n := bits e0 49 38 - 1
  let s := s.setVword r.ward r.entry (putBits e0 49 38 n)
  if n = 0 ∧ bits e0 37 37 = 1 then s.dropEntry r.ward r.table r.entry else s

/-! ### Removal of units -/

/-- The engines of a core between tiles: of a pass only its generation tag stays (R105). -/
def Core.tags (k : Core) : List Engine := k.engines.map fun e => { tag := e.tag }

/-- R35, R191: a core's tile is discarded: nothing of it is released, its walks' references end and the core is
idle with its registers clear. -/
def State.discardTile (s : State) (c : Nat) : State :=
  let k := s.core c
  let s := k.refs.foldl (fun s r => s.releaseRef r) s
  s.setCore c { excTask := k.excTask, ops := k.ops, issued := k.issued, engines := k.tags }

/-- R115, R397: the tile of a core goes back to its task's queue. -/
def State.returnTile (s : State) (c : Nat) : State :=
  match (s.core c).tile with
  | none => s.discardTile c
  | some t =>
    (s.discardTile c).modTask t.req t.task fun x => { x with returned := x.returned ++ [t.idx] }

/-- R397: a core takes no further tile until the next start. -/
def State.excludeCore (s : State) (c : Nat) : State := (s.returnTile c).wr .engStat_EXCLUDED c 1

/-- R397: a cluster takes no further tile until the next start; its ward keeps it, empty, until the step boundary, and a
plan already made does not give it away (R405). -/
def State.excludeCluster (s : State) (g : Nat) : State :=
  let s := (List.range 8).foldl (fun s j => s.excludeCore (8 * g + j)) s
  s.setCluster g { s.cluster g with excluded := true, next := some none }

/-! ### Readers and writers -/

/-- The die whose SRAM a region is, for MEM_SRAM_STAT: IO0, IO1, then the C-dies. -/
def Region.sramDie : Region → Nat
  | .core i _ => 2 + i / 48
  | .cluster g _ => 2 + g / 6
  | .red io _ => io
  | _ => 1

/-- The ward concerned by a word of SRAM (R401). -/
def State.sramWard (s : State) : Region → Nat
  | .core i _ => (s.cluster (clusterOf i)).ward.getD 0xFFFF
  | .cluster g _ => (s.cluster g).ward.getD 0xFFFF
  | _ => 0xFFFF

/-- R393: an uncorrectable word read in SRAM: counted, poisoned in core and cluster memory, logged, and its owner
removed where the rule says so. -/
def State.sramUncorrectable (s : State) (a : Nat) : State :=
  let r := region a
  let s := s.bump .memSramStat_UNCORRECTABLE r.sramDie
  let w := s.sramWard r
  let count (s : State) (key : Nat) : State :=
    { s with hbm := { s.hbm with bankErrors := Smap.put 0 s.hbm.bankErrors key (Smap.get 0 s.hbm.bankErrors key + 1) } }
  match r with
  | .core i off =>
    let s := (s.setMark a { poison := true }).event 0x02 i 2 w 0x02 a
    let key := i * 32 + off / 2 ^ 16
    let s := count s key
    if Smap.get 0 s.hbm.bankErrors key = 2 then
      (s.event 0x02 i 3 w 0x06 (off / 2 ^ 16)).excludeCore i
    else s
  | .cluster g off =>
    let s := (s.setMark a { poison := true }).event 0x03 g 2 w 0x02 a
    let key := 2 ^ 16 + g * 16 + off / 2 ^ 19
    let s := count s key
    if Smap.get 0 s.hbm.bankErrors key = 2 then
      (s.event 0x03 g 3 w 0x06 (off / 2 ^ 19)).excludeCluster g
    else s
  | .red io off =>
    let slot := io * 2048 + off / 4096
    let s := s.event 0x04 slot 2 w 0x02 a
    if slot ∈ s.hbm.slotsRemoved then s else
    let s := { s with hbm := { s.hbm with slotsRemoved := slot :: s.hbm.slotsRemoved } }
    (s.wr .colSlotStat_FREE io (s.rd .colSlotStat_FREE io - 1)).event 0x04 slot 3 w 0x06 (off / 4096)
  | _ => s

/-- What reading the word at a does to the state (R229, R236, R390 to R393): corrections are written back and
counted, uncorrectable results counted and poisoned. Afterwards the stored data is what the reader gets. -/
def State.touchWord (s : State) (a : Nat) : State :=
  let k := s.mark a
  let m := k.flips.toNat
  if m = 0 then s else
  match region a with
  | .hbm off => s.touchHbm a off
  | r =>
    if m = sramCheckFlips then s.setMark a { poison := !k.poison }
    else if sramPoisoned k then s.setMark a { poison := true }
    else if sramBad m then s.sramUncorrectable a
    else (s.settleWord a (if popcount 92 m = 1 then 0 else m) false).bump .memSramStat_CORRECTED r.sramDie

/-- What reading a range does to the state. -/
def State.touch (s : State) (a n : Nat) : State :=
  if (Smap.within s.marks (a / 8) ((a + n + 7) / 8 - a / 8)).isEmpty then s
  else (wordsOf a n).foldl State.touchWord s

/-- What the read of an atomic read-modify-write does to the state: in HBM it reads the whole unit (R245). -/
def State.touchRmw (s : State) (a n : Nat) : State :=
  match region a with
  | .hbm _ => s.touch (a / 64 * 64) 64
  | _ => s.touch a n

/-- A reader's access to a range of local memory: the state after it, the bytes and the damage. -/
def State.read (s : State) (a n : Nat) : State × List Byte × Nat :=
  let d := s.damage a n
  let s := s.touch a n
  (s, s.peek a n, d)

/-- Disturbances that the environment brings to stored words (R229, R234), and the on-die reports of the stacks (R232). -/
def State.upset (s : State) (us : List Upset) : State :=
  us.foldl (fun s u =>
    let k := s.mark u.addr
    let s := s.setMark u.addr { k with flips := k.flips ^^^ u.mask }
    if u.onDie then { s with hbm := { s.hbm with onDie := s.hbm.onDie.modify (stackOf (u.addr - hbmBase)) (· + 1) } } else s) s

/-- A write to SRAM (R229, R230): whole words become sound, a partly written word is read, merged and rewritten,
poisoned where the old word was uncorrectable. -/
def State.writeSram (s : State) (a : Nat) (bs : List Byte) : State :=
  let part := partWords a bs.length
  let badWords := part.filter fun w => s.wordDamage w = cUncorrectable
  let s := part.foldl State.touchWord s
  let s := badWords.foldl (fun s w => (s.setMark w { poison := true }).bump .memSramStat_POISON_WRITTEN (region w).sramDie) s
  let s := if (Smap.within s.marks (a / 8) (bs.length / 8 + 2)).isEmpty then s
    else (wholeWords a bs.length).foldl (fun s w => s.setMark w {}) s
  s.poke a bs

/-- A write of a range of local memory; poison true writes every word of it poisoned (Table 9.2). -/
def State.write (s : State) (a : Nat) (bs : List Byte) (poison : Bool := false) : State :=
  if bs.isEmpty then s else
  let s := match region a with
    | .hbm _ =>
      (unitsOf a bs.length).foldl (fun s u =>
        let lo := max a u
        let hi := min (a + bs.length) (u + 64)
        s.writeUnit lo ((bs.drop (lo - a)).take (hi - lo))) s
    | _ => s.writeSram a bs
  if poison then
    (wordsOf a bs.length).foldl (fun s w =>
      match region w with
      | .hbm off => if s.live (pcNum off) then s.setMark w { poison := true } else s
      | r => (s.setMark w { poison := true }).bump .memSramStat_POISON_WRITTEN r.sramDie) s
  else s

/-- A write of a little-endian number. -/
def State.writeN (s : State) (a n v : Nat) : State := s.write a (bytesOf n v)

/-! ### A ward's readers and writers -/

/-- A control reader's access to ward memory on this node (R231, R240): state, bytes, and the code of the first
failure. Bytes that lie on another node or in a borrowed window are free values (log entry 8). -/
def State.vread (s : State) (ward a n : Nat) : State × List Byte × Nat :=
  (pieces a n).foldl (fun (acc : State × List Byte × Nat) p =>
    let (s, bs, c) := acc
    match s.locate ward p.1 false with
    | (0, .phys l) => let (s, b, d) := s.read l p.2; (s, bs ++ b, firstCode [c, d])
    | (0, _) => let (s, b) := State.freeBytes p.2 s; (s, bs ++ b, c)
    | (code, _) => (s, bs ++ bytesOf p.2 0, firstCode [c, code])) (s, [], 0)

/-- A write to ward memory on this node; pieces that do not translate for writing are not written. -/
def State.vwrite (s : State) (ward a : Nat) (bs : List Byte) (poison : Bool := false) : State :=
  (pieces a bs.length).foldl (fun s p =>
    match s.locate ward p.1 true with
    | (0, .phys l) => s.write l ((bs.drop (p.1 - a)).take p.2) poison
    | _ => s) s

/-- A 64-bit word of a byte list. -/
def wordAt (bs : List Byte) (i : Nat) : Nat := ofBytes ((bs.drop (8 * i)).take 8)

/-- The 64-bit words of a byte list. -/
def wordsIn (bs : List Byte) : List Word :=
  (List.range (bs.length / 8)).map fun i => BitVec.ofNat 64 (wordAt bs i)

/-- The bytes of a list of 64-bit words. -/
def bytesIn (ws : List Word) : List Byte := ws.flatMap fun w => bytesOf 8 w.toNat

/-! ### Signal words -/

/-- R51, R53: a signal word's increment at its home: unsigned, modulo 2^64; the code where the word is damaged. -/
def State.increment (s : State) (a inc : Nat) : State × Nat :=
  let d := s.rmwDamage a 8
  let s := s.touchRmw a 8
  if d ≠ 0 then (s, d) else (s.writeN a 8 ((s.peekN a 8 + inc) % 2 ^ 64), 0)

end Sys2Proof.Machine
end

