-- ==== Sys2Proof/Machine/Clock.lean ====
section
/-! DEFINITION. SCLK: raw time and the step latch's count (R384 to R387, R453). -/
namespace Sys2Proof.Machine

/-- Whether SCLK runs: from the start of step 3 until PWR_GOOD or RESET_N falls (R423); a thermal trip leaves it running
(R405). -/
def State.sclk (s : State) : Bool := s.boot.clocks

/-- Whether CCLK, FCLK and MCLK run: as SCLK does, but not after a thermal trip (R381). -/
def State.fclk (s : State) : Bool := s.sclk && decide (s.boot.phase ≠ .tripped)

/-- Clocks stop for good (R381, R423): what clusters, fabric, ports and scheduler held neither acts nor is seen again
before the start that clears it (R450, log entry 166). -/
def State.halted (s : State) : State :=
  { s with cores := List.replicate 192 {}, clusters := List.replicate 24 {}, requests := [], images := [], coll := {}, host := {},
           exporter := {}, latch := { s.latch with out := 0, unseen := [] },
           hinge := { s.hinge with ports := [{}, {}, {}, {}, {}, {}], flying := [], heldRoutes := [] } }

/-- The ward to which a cluster is assigned in the step, though a handover may have taken it already, or the clearing
not given it yet (R40, R42). -/
def Cluster.assigned (c : Cluster) : Option Nat :=
  if c.boundaryPassed then c.incoming else if c.handover = .cleared then c.outgoing else c.ward

/-- R361, R446: what a plan and the check of an expert write in this very SCLK cycle use, kept before a ward's policy
changes. -/
def State.keepLimits (s : State) (w : Nat) : State :=
  ((s.keep .wrdPolicy_CL_MIN w).keep .wrdPolicy_CL_MAX w).keep .wrdPolicy_EXPERT_UNLOCK w

/-- R343, R361: CL_MIN and CL_MAX of a ward as a plan made now uses them. -/
def State.planLimits (s : State) (w : Nat) : Nat × Nat := (s.was .wrdPolicy_CL_MIN w, s.was .wrdPolicy_CL_MAX w)

/-- R453: the offset in force is kept for the rest of the cycle, before it changes. -/
def State.keepOffset (s : State) : State :=
  if s.latch.oldOffset.isSome then s else { s with latch := { s.latch with oldOffset := some s.offset } }

/-- The cycle ends in which the offset in force has changed: the times of exchanges under way move with it, so that no
interval is cut or lengthened (R453). -/
def State.shiftExchanges (s : State) : State :=
  match s.latch.oldOffset with
  | none => s
  | some o =>
    let s := { s with latch := { s.latch with oldOffset := none } }
    let move (t : Nat) : Nat := if t = 0 then 0 else unsignedOf 64 ((t : Int) + (s.offset - o))
    { s with hinge := { s.hinge with ports := s.hinge.ports.map fun h => { h with lastTx := move h.lastTx, lastRx := move h.lastRx } } }

/-- One SCLK cycle: raw time advances by 2 and 3 ns in turn (R453), the step latch counts up to the step length, where the
internal boundary falls (R384, log entry 169), and STEP_OUT counts down the 16 cycles it stays high. A device that is in
reset or off does none of it. -/
def tick (s : State) : Out :=
  if s.sclk then
    let s := s.shiftExchanges
    let l := s.latch
    .next ({ s with latch := { l with half := !l.half, since := min l.length (l.since + 1), ran := l.ran + 1, out := l.out - 1,
                                      old := [] } }.wr .sysTimeRaw_RAW 0
      (s.rd .sysTimeRaw_RAW + (if l.half then 3 else 2)))
  else .next s

end Sys2Proof.Machine
end

