-- ==== Sys2Proof/Machine/Slots.lean ====
section
/-! DEFINITION. Collective groups (R274, Table 11.1) and the slots of reduction memory that they reserve, claim and hold
(R288 to R290, R303). -/
namespace Sys2Proof.Machine

/-! ### Groups -/

/-- Whether an axis is spanned. -/
def Group.spans (g : Group) (a : Nat) : Bool := g.w0.testBit (55 + a)

/-- An expert field of the descriptor in force (R9). -/
def Group.expert (g : Group) (hi lo : Nat) : Nat := if g.unlocked then bits g.w0 hi lo else 0

/-- Slots reserved per ring: 0 selects 4. -/
def Group.reserve (g : Group) : Nat := if g.expert 42 36 = 0 then 4 else g.expert 42 36

/-- Most slots held per ring: 0 selects 64; never below RESERVE. -/
def Group.maxHold (g : Group) : Nat := max g.reserve (if g.expert 35 28 = 0 then 64 else 4 * g.expert 35 28)

/-- The spanned axes in order. -/
def Group.axes (g : Group) : List Nat := [0, 1, 2].filter g.spans

/-- The I/O die of an axis: X and Y on IO0, Z on IO1 (R275). -/
def axisDie (a : Nat) : Nat := if a = 2 then 1 else 0

def State.group (s : State) (id : Nat) : Option Group := s.coll.groups.find? fun g => g.id = id

def State.modGroup (s : State) (id : Nat) (f : Group → Group) : State :=
  { s with coll := { s.coll with groups := s.coll.groups.map fun g => if g.id = id then f g else g } }

/-! ### Slots -/

/-- Slots of an I/O die that R393 removed. -/
def State.removedSlots (s : State) (io : Nat) : Nat := (s.hbm.slotsRemoved.filter fun n => decide (n / 2048 = io)).length

/-- FREE as Table 11.3 defines it: neither reserved nor claimed; none while an activation's reservations reach into the
claims (R289). -/
def State.setFree (s : State) (io : Nat) : State :=
  s.wr .colSlotStat_FREE io
    (2048 - s.removedSlots io - s.rd .colSlotStat_RESERVED_SLOTS io - s.rd .colSlotStat_CLAIMED io)

/-- HELD of Table 11.4 for an axis. -/
def heldFld : Nat → Fld
  | 0 => .colGroupStat_HELD_X
  | 1 => .colGroupStat_HELD_Y
  | _ => .colGroupStat_HELD_Z

/-- The slots a group holds on an axis changed. -/
def State.setHeld (s : State) (g a n : Nat) : State :=
  (s.modGroup g fun x => { x with held := x.held.set a n }).wr (heldFld a) g (satN 7 n)

/-- The lowest slot of a die that nothing occupies. -/
def State.freeSlot (s : State) (io : Nat) : Option Nat :=
  (List.range 2048).find? fun n =>
    !decide (io * 2048 + n ∈ s.hbm.slotsRemoved) && decide (Smap.get 0 s.coll.slots (io * 2048 + n) = 0)

/-- The key of a chunk on an axis. -/
def axisChunk (a c : Nat) : Nat := a * 2 ^ 24 + c

/-- The axis of such a key. -/
def keyAxis (k : Nat) : Nat := k / 2 ^ 24

/-- A group's claims on an axis that have been granted to chunks which are not staged yet (R290). -/
def State.grantedOn (s : State) (gid a : Nat) : Nat :=
  (s.coll.ops.filter fun o => decide (o.group = gid)).foldl (fun n o => n + o.granted.countP fun k => decide (keyAxis k = a)) 0

/-- The slots of a ring that a group holds or has been granted. -/
def State.slotsUsed (s : State) (g : Group) (a : Nat) : Nat := g.held.getD a 0 + s.grantedOn g.id a

/-- The claims of a group on an axis changed, and counted on the die. -/
def State.setClaims (s : State) (g : Group) (a n : Nat) : State :=
  let io := axisDie a
  ((s.modGroup g.id fun x => { x with claims := x.claims.set a n }).wr .colSlotStat_CLAIMED io
    (s.rd .colSlotStat_CLAIMED io + n - g.claims.getD a 0)).setFree io

/-- Claims that a group no longer needs beyond its reservation fall (R289, R290). -/
def State.trimClaims (s : State) (gid a : Nat) : State :=
  match s.group gid with
  | none => s
  | some g =>
    let need := s.slotsUsed g a - g.reserve
    if need < g.claims.getD a 0 then s.setClaims g a need else s

/-- The order of claims (R290): PRIO, then GROUP. -/
def Group.claimKey (g : Group) : Nat := g.expert 48 47 * 64 + g.id

/-- Whether a claim of a group waits on an axis, with the group below MAXHOLD there (R290). -/
def State.claimWaits (s : State) (g : Group) (a : Nat) : Bool :=
  decide (s.slotsUsed g a < g.maxHold) &&
    s.coll.ops.any fun o => decide (o.group = g.id) && o.waiting.any fun k => decide (keyAxis k = a)

/-- The group whose claim on a die comes first (R290). -/
def State.firstClaim (s : State) (io : Nat) : Option Group :=
  let waits (g : Group) : Bool := [0, 1, 2].any fun a => decide (axisDie a = io) && s.claimWaits g a
  (s.coll.groups.filter waits).foldl (fun (best : Option Group) g =>
    match best with
    | none => some g
    | some b => if g.claimKey < b.claimKey then some g else some b) none

/-- Whether a new claim of a group must wait behind another's, or its own group's, on the same die (R290). -/
def State.claimAhead (s : State) (g : Group) (io : Nat) : Bool :=
  match s.firstClaim io with
  | some b => decide (b.claimKey ≤ g.claimKey)
  | none => false

/-- One slot taken for a ring (R288 to R290, R303): a granted claim's, one within what the group has reserved and claimed,
else a new claim; none where the claim cannot be met. -/
def State.takeSlot (s : State) (g : Group) (a : Nat) (granted : Bool) : Option (State × Nat) :=
  let io := axisDie a
  let h := g.held.getD a 0
  match s.freeSlot io with
  | none => none
  | some n =>
    let occupy (s : State) : State :=
      ({ s with coll := { s.coll with slots := Smap.put 0 s.coll.slots (io * 2048 + n) 1 } } : State).setHeld g.id a (h + 1)
    if granted ∨ s.slotsUsed g a < g.reserve + g.claims.getD a 0 then some (occupy s, n)
    else if s.slotsUsed g a ≥ g.maxHold ∨ s.rd .colSlotStat_FREE io = 0 ∨ s.claimAhead g io = true then none
    else some (occupy (s.setClaims g a (g.claims.getD a 0 + 1)), n)

/-- A slot given back: the group's claims fall first. -/
def State.giveSlot (s : State) (gid a n : Nat) : State :=
  let io := axisDie a
  let s := { s with coll := { s.coll with slots := Smap.put 0 s.coll.slots (io * 2048 + n) 0 } }
  match s.group gid with
  | none => s
  | some g => (s.setHeld gid a (g.held.getD a 0 - 1)).trimClaims gid a

/-- WAITING of Table 11.3: the claims that wait on a die; 255 stands for more. -/
def State.noteWaiting (s : State) (io : Nat) : State :=
  s.wr .colSlotStat_WAITING io
    (satN 8 (s.coll.ops.foldl (fun n o => n + o.waiting.countP fun k => decide (axisDie (keyAxis k) = io)) 0))

/-- OPEN_OPS of Table 11.4: a group's open operations; 255 stands for 256. -/
def State.noteOpen (s : State) (gid : Nat) : State :=
  s.wr .colGroupStat_OPEN_OPS gid (satN 8 (s.coll.ops.filter fun o => decide (o.group = gid)).length)

end Sys2Proof.Machine
end

