-- ==== Sys2Proof/Machine/Fabric.lean ====
section
/-! DEFINITION. Packets between devices: routes over the torus (R256, R257, R264 to R266), packets, flits, credits and
the sharing of a hinge port (R259 to R263, R267, R270, R294, R347, R348), and the operations that a core, the scheduler or
a collective sends. -/
namespace Sys2Proof.Machine

/-! ### Coordinates and routes -/

/-- The coordinate of a node on an axis: 0 X, 1 Y, 2 Z (R23). -/
def coord (n axis : Nat) : Nat := n / 16 ^ axis % 16

/-- The axis lengths (R256). -/
def State.axisLen (s : State) : Nat → Nat
  | 0 => s.rd .hngTorusCfg_LX + 1
  | 1 => s.rd .hngTorusCfg_LY + 1
  | _ => s.rd .hngTorusCfg_LZ + 1

/-- The node ID with a coordinate replaced. -/
def setCoord (n axis v : Nat) : Nat := n - coord n axis * 16 ^ axis + v * 16 ^ axis

/-- The neighbour that port p of node n leads to: p = 2 x axis, plus 1 in the minus direction (R257). -/
def State.neighbour (s : State) (n p : Nat) : Nat :=
  let a := p / 2
  let l := s.axisLen a
  setCoord n a (if p % 2 = 0 then (coord n a + 1) % l else (coord n a + l - 1) % l)

/-- The port at the other end of a link. -/
def peerPort (p : Nat) : Nat := if p % 2 = 0 then p + 1 else p - 1

/-- A hinge port of this device. -/
def State.port (s : State) (p : Nat) : HingePort := s.hinge.ports.getD p {}

/-- The state with a hinge port replaced. -/
def State.setPort (s : State) (p : Nat) (x : HingePort) : State :=
  { s with hinge := { s.hinge with ports := s.hinge.ports.set p x } }

/-- Whether a hinge port stands at a value of its STATE and FCLK runs (R381). -/
def State.portIs (s : State) (p n : Nat) : Bool := s.fclk && decide (s.rd .hngPortStat_STATE p = n)

/-- Whether a port of this device counts as usable for routing: up, or retraining with its traffic held (R257,
R266, R267). -/
def State.portUsable (s : State) (p : Nat) : Bool :=
  decide (s.rd .hngPortStat_STATE p = 2) || decide (s.rd .hngPortStat_STATE p = 3)

/-- Whether the link at port p of node n is usable as this device knows it (R266). -/
def State.linkUsable (s : State) (n p : Nat) : Bool :=
  (if n = s.node then s.portUsable p else true)
    && (if s.neighbour n p = s.node then s.portUsable (peerPort p) else true)
    && !decide ((n, p) ∈ s.hinge.linkBad) && !decide ((s.neighbour n p, peerPort p) ∈ s.hinge.linkBad)

/-- Whether k hops from node n through port p are usable. -/
def State.pathUsable (s : State) (p : Nat) : Nat → Nat → Bool
  | 0, _ => true
  | k + 1, n => s.linkUsable n p && s.pathUsable p k (s.neighbour n p)

/-- Hops from coordinate x to y on an axis of length l, plus and minus. -/
def hops (l x y : Nat) : Nat × Nat := ((y + l - x % l) % l, (x + l - y % l) % l)

/-- R265, R266: the port that the device which starts an axis chooses; none where neither direction is usable. -/
def State.chooseDir (s : State) (axis dest : Nat) : Option Nat :=
  let (hp, hm) := hops (s.axisLen axis) (coord s.node axis) (coord dest axis)
  let plus := s.pathUsable (2 * axis) hp s.node
  let minus := s.pathUsable (2 * axis + 1) hm s.node
  if hp ≤ hm then (if plus then some (2 * axis) else if minus then some (2 * axis + 1) else none)
  else (if minus then some (2 * axis + 1) else if plus then some (2 * axis) else none)

/-- The next axis on which a packet still has to travel. -/
def State.nextAxis (s : State) (dest : Nat) : Option Nat :=
  [0, 1, 2].find? fun a => coord dest a ≠ coord s.node a

/-- The output port of a packet at this device: it follows DIR on the axis it came in on, else the device chooses
(R265). -/
def State.route (s : State) (p : Packet) (inPort : Option Nat) : Option Nat :=
  match s.nextAxis p.dest with
  | none => none
  | some a =>
    match inPort with
    | some i => if i / 2 = a then some (2 * a + (if p.dir.testBit a then 1 else 0)) else s.chooseDir a p.dest
    | none => s.chooseDir a p.dest

/-- Whether this device reaches a node now (R246, R266). -/
def State.reachable (s : State) (n : Nat) : Bool := s.inTorus n && (n == s.node || (s.route { dest := n } none).isSome)

/-! ### Die links (R13, R14, R396) -/

/-- Whether a die link is up. The ring's links are C0-C1, C1-C2, C2-C3 and C3-C0; links 4 to 7 join C0 and C1 to IO0, C2 and C3
to IO1. -/
def State.dieLinkUp (s : State) (link : Nat) : Bool := s.boot.dieLinksUp.getD link false

/-- R14: the links of the one route between two C-dies: fewest hops, ascending through C1 or C2 between opposite dies. -/
def ringRoute (a b : Nat) : List Nat :=
  if a = b then []
  else if (a + 1) % 4 = b then [a]
  else if (b + 1) % 4 = a then [b]
  else [min a b, min a b + 1]

/-- R14: the links of the route between two dies, C0 to C3 as 0 to 3, IO0 as 4, IO1 as 5; between the I/O dies, the one of
traffic that originates at a port or at C0 or C3 (log entry 171). A C-die that has no link to an I/O die goes to it by the
ring. -/
def dieRoute (a b : Nat) : List Nat :=
  let out (c io : Nat) : List Nat := if c / 2 + 4 = io then [4 + c] else let n := 3 - c; ringRoute c n ++ [4 + n]
  if a = b then []
  else if 4 ≤ a ∧ 4 ≤ b then [4, 3, 7]
  else if 4 ≤ b then out a b
  else if 4 ≤ a then out b a
  else ringRoute a b

/-- The die on which a place lies, or from which the traffic to it leaves the device. -/
def State.placeDie (s : State) (l : Loc) : Nat :=
  let port (n : Nat) : Nat := ((s.route { dest := n } none).map fun p => 4 + axisDie (p / 2)).getD 4
  match l with
  | .phys a => match region a with
    | .hbm off => stackOf off
    | .core i _ => dieOf (clusterOf i)
    | .cluster g _ => dieOf g
    | .red io _ => 4 + io
    | _ => 4
  | .remote n _ => port n
  | .window n _ _ => port n

/-- R396: whether the traffic between two dies is held: a link of its route retrains. -/
def State.dieHeld (s : State) (a b : Nat) : Bool := decide (s.boot.phase = .ready) && (dieRoute a b).any fun l => !s.dieLinkUp l

/-! ### Flits -/

/-- CRC-64 of R260, bit by bit, highest bit of each byte first. -/
def crc64Bits : Nat → Word → Word
  | 0, x => x
  | k + 1, x => crc64Bits k (if x.msb then (x <<< 1) ^^^ 0x42F0E1EBA9EA3693 else x <<< 1)

/-- The CRC-64 register after bytes. -/
def crc64Go : Word → List Byte → Word
  | x, [] => x
  | x, b :: bs => crc64Go (crc64Bits 8 (x ^^^ ((b.zeroExtend 64) <<< 56))) bs

/-- CRC-64 of bytes: all-ones initial value and final exclusive or (R260). -/
def crc64 (bs : List Byte) : Word := (crc64Go (BitVec.allOnes 64) bs) ^^^ BitVec.allOnes 64

/-- Table 10.3: the header of a data flit. -/
def flitHeader (f : Flit) : Nat :=
  f.typ % 4 * 2 ^ 30 + f.vc % 8 * 2 ^ 27 + f.seq % 1024 * 2 ^ 17 + f.ack % 1024 * 2 ^ 7 + f.crvc % 8 * 16 + f.crn % 16

/-- The CRC that R259 puts over header and payload. -/
def goodCrc (f : Flit) : Word := crc64 (bytesOf 4 (flitHeader f) ++ f.payload)

/-- R259, Table 10.2: the 256 bytes of a flit, lowest byte of each field first (log entry 157). -/
def wireOf (f : Flit) : List Byte :=
  let half0 := bytesOf 4 (flitHeader f) ++ f.payload.take 120
  let half1 := f.payload.drop 120 ++ bytesOf 8 f.crc.toNat
  half0 ++ bytesOf 4 (Config.fecCheck half0).toNat ++ half1 ++ bytesOf 4 (Config.fecCheck half1).toNat

/-- The flit that 256 bytes spell. -/
def flitOfWire (bs : List Byte) : Flit :=
  let x := ofBytes (bs.take 4)
  { typ := bits x 31 30, vc := bits x 29 27, seq := bits x 26 17, ack := bits x 16 7, crvc := bits x 6 4, crn := bits x 3 0,
    crc := BitVec.ofNat 64 (ofBytes ((bs.drop 244).take 8)), payload := (bs.drop 4).take 120 ++ (bs.drop 128).take 116 }

/-- The wrong symbols of a flit's half: 64 symbols each (R259, R260). -/
def wrongIn (f : Flit) (half : Nat) : List (Nat × BitVec 16) := f.errors.filter fun e => decide (e.1 / 64 = half)

/-- The symbol that FEC turns back in a half, with its bits (R260): the one that is wrong; where several are, what the
decoder takes for it. -/
def fixIn (f : Flit) (half : Nat) : Option (Nat × BitVec 16) :=
  match wrongIn f half with
  | [] => none
  | [e] => some e
  | es => (Config.fecMany (es.map fun e => (e.1 % 64, e.2))).map fun e => (64 * half + e.1 % 64, e.2)

/-- What is still turned over in a half after FEC. -/
def residueIn (f : Flit) (half : Nat) : List (Nat × BitVec 16) :=
  match wrongIn f half with
  | [] | [_] => []
  | es => es ++ (fixIn f half).toList

/-- Bytes with symbols' bits turned over: symbol n is bytes 2n and 2n + 1. -/
def flipSymbols (bs : List Byte) (es : List (Nat × BitVec 16)) : List Byte :=
  es.foldl (fun (bs : List Byte) (e : Nat × BitVec 16) =>
    (bs.modify (2 * e.1) (· ^^^ e.2.truncate 8)).modify (2 * e.1 + 1) (· ^^^ (e.2 >>> 8).truncate 8)) bs

/-- R260: the flit as the receiver has it after FEC. -/
def receivedFlit (f : Flit) : Flit :=
  let es := residueIn f 0 ++ residueIn f 1
  if es = [] then { f with errors := [] } else flitOfWire (flipSymbols (wireOf f) es)

/-- The lanes that a corrected symbol counts against: symbol n travels on lane n mod 8 (R259, R260). -/
def fecLanes (f : Flit) : List Nat := ([0, 1].filterMap (fixIn f)).map fun e => e.1 % 8

/-- Table 10.4: a packet's header. -/
def packetHeader (p : Packet) : Nat :=
  p.dest % 4096 * 2 ^ 116 + p.src % 4096 * 2 ^ 104 + p.op % 32 * 2 ^ 99 + p.ward % 512 * 2 ^ 90 + p.dir % 8 * 2 ^ 87 +
  p.pseq % 65536 * 2 ^ 71 + p.len % 128 * 2 ^ 64 + (if p.pz then 2 ^ 52 else 0) + p.addr % 2 ^ 52

/-- The packet that a header spells, with no data yet. -/
def packetOfHeader (x : Nat) : Packet :=
  { dest := bits x 127 116, src := bits x 115 104, op := bits x 103 99, ward := bits x 98 90, dir := bits x 89 87,
    pseq := bits x 86 71, len := bits x 70 64, pz := x.testBit 52, addr := bits x 51 0 }

/-- Packet operation codes (Table 10.4). -/
def opRead : Nat := 0x00
def opWrite : Nat := 0x01
def opWriteSignal : Nat := 0x02
def opAtomic : Nat := 0x03
def opReduceWrite : Nat := 0x04
def opReadData : Nat := 0x10
def opAck : Nat := 0x11
def opAtomicData : Nat := 0x12
def opNak : Nat := 0x13

/-- A READ carries its length in LEN and no data units; every other packet LEN units (log entry 9). -/
def packetUnits (p : Packet) : Nat := if p.op = opRead then 0 else p.len

/-- The virtual channel pair of a packet: 0 request, 2 response, 4 reduce (R261). -/
def vcBase (p : Packet) : Nat :=
  if p.op = opReduceWrite then 4 else if p.op < 0x10 then 0 else 2

/-- The VC of a packet that leaves through a port: d1 on and after the wrap link of the axis (R264). -/
def State.vcOf (s : State) (p : Packet) (outPort : Nat) (inVc : Option (Nat × Nat)) : Nat :=
  let a := outPort / 2
  let x := coord s.node a
  let wrap := if outPort % 2 = 0 then decide (x + 1 = s.axisLen a) else decide (x = 0)
  let was := match inVc with | some (port, vc) => decide (port / 2 = a) && decide (vc % 2 = 1) | none => false
  vcBase p + (if wrap || was then 1 else 0)

/-- A message on a port outside its packet stream. -/
def State.control (s : State) (port : Nat) (m : ControlMsg) : State :=
  let h := s.port port
  s.setPort port { h with controls := h.controls ++ [m] }

/-- A packet's bytes on the link (R261). -/
def packetBytes (p : Packet) : List Byte := bytesOf 16 (packetHeader p) ++ p.data

/-! ### Buffers and slots that a packet holds (R263, R288) -/

/-- A packet of a group of received flits has left: after the last one their buffers are free, to be returned as credits. -/
def HingePort.leave (h : HingePort) (id : Nat) : HingePort :=
  match h.rx.find? fun g => decide (g.id = id) with
  | none => h
  | some g =>
    if g.left ≤ 1 then
      { h with rx := h.rx.filter fun x => decide (x.id ≠ id), toReturn := h.toReturn.modify g.vc (· + g.flits) }
    else { h with rx := h.rx.map fun x => if x.id = id then { x with left := x.left - 1 } else x }

/-- A packet has left the device, or its way: what it held is free. -/
def State.freeHold (s : State) (x : Hold) : State :=
  let s := match x.slot with
    | some (g, a, n) => s.giveSlot g a n
    | none => s
  match x.buf with
  | some (port, id) => s.setPort port ((s.port port).leave id)
  | none => s

/-- Control flits that return the credits still owed, up to 15 each (Table 10.3, log entry 157). -/
def HingePort.returnCredits (h : HingePort) : HingePort :=
  let back (v : Nat) : List ControlMsg :=
    let n := h.toReturn.getD v 0
    (List.range (ceilDiv n 15)).map fun i => .credits h.ackSeq v (min 15 (n - 15 * i))
  { h with controls := h.controls ++ (List.range 6).flatMap back, toReturn := h.toReturn.map fun _ => 0 }

/-- The same for a port that is up. -/
def State.returnCredits (s : State) (port : Nat) : State :=
  if s.rd .hngPortStat_STATE port = 2 then s.setPort port (s.port port).returnCredits else s

/-! ### Sharing a port (R270, R294, R347, R348) -/

/-- The flow among those that may send, each with its next cost and its quantum, that comes after another in the round. -/
def Drr.next (turn : Nat) (flows : List (Nat × Nat × Nat)) : Option (Nat × Nat × Nat) :=
  let least (l : List (Nat × Nat × Nat)) : Option (Nat × Nat × Nat) :=
    l.foldl (fun (best : Option (Nat × Nat × Nat)) f =>
      match best with
      | none => some f
      | some b => if f.1 < b.1 then some f else some b) none
  match least (flows.filter fun f => decide (turn < f.1)) with
  | some f => some f
  | none => least flows

/-- The flow that sends next, its cost taken from its deficit. A flow with nothing waiting keeps no deficit; one that
waits but may not send now keeps its own (R270). A quantum covers every cost, so one visit is enough. -/
def Drr.pick (d : Drr) (waiting : List Nat) (flows : List (Nat × Nat × Nat)) : Option (Nat × Drr) :=
  let kept := d.deficit.filter fun x => decide (x.1 ∈ waiting)
  match flows.find? fun f => decide (f.1 = d.turn) && decide (f.2.1 ≤ Smap.get 0 kept f.1) with
  | some f => some (f.1, { d with deficit := Smap.put 0 kept f.1 (Smap.get 0 kept f.1 - f.2.1) })
  | none =>
    match Drr.next d.turn flows with
    | none => none
    | some f => some (f.1, { turn := f.1, deficit := Smap.put 0 kept f.1 (Smap.get 0 kept f.1 + f.2.2 - f.2.1) })

/-- The flow of a packet within its VC: its group in the reduce VCs, elsewhere its ward (R294, R347). -/
def flowOf (o : OutPacket) : Nat := if 4 ≤ o.vc then bits o.p.addr 49 44 else o.p.ward

/-- The packet that a VC's stream goes on with: the one already begun, else the first of the flow whose turn it is, among
those that may use the flit. -/
def HingePort.nextIn (h : HingePort) (quantum : Nat → Nat) (mine : Packet → Bool) (vc : Nat) : Option (Nat × Drr) :=
  let d := h.flowTurns.getD vc {}
  match h.outPackets.findIdx? fun o => decide (o.vc = vc) && decide (o.off ≠ 0) with
  | some i => some (i, d)
  | none =>
    let all := h.outPackets.filter fun o => decide (o.vc = vc)
    let flows := (all.filter fun o => mine o.p).foldl (fun (l : List (Nat × Nat × Nat)) o =>
      if l.any fun f => decide (f.1 = flowOf o) then l else l ++ [(flowOf o, (packetBytes o.p).length, quantum (flowOf o))]) []
    match d.pick (all.map flowOf) flows with
    | none => none
    | some (k, d) =>
      (h.outPackets.findIdx? fun o => decide (o.vc = vc) && mine o.p && decide (flowOf o = k)).map fun i => (i, d)

/-- R261: packets laid back to back into what room a flit has; a packet may go on in the VC's next flit. One whose bytes
here would all be zero, which end the stream, begins in the next flit. Answers the bytes and the packets that end here. -/
def HingePort.fill (quantum : Nat → Nat) (mine : Packet → Bool) (vc : Nat) :
    Nat → HingePort → Nat → HingePort × List Byte × List OutPacket
  | 0, h, _ => (h, [], [])
  | k + 1, h, room =>
    match h.nextIn quantum mine vc with
    | none => (h, [], [])
    | some (i, d) =>
      let o := h.outPackets.getD i {}
      let bs := (packetBytes o.p).drop o.off
      if o.off = 0 ∧ room < 16 ∧ (bs.take room).all (· = 0) then (h, [], [])
      else
        let h := { h with flowTurns := h.flowTurns.set vc d }
        if room < bs.length then
          ({ h with outPackets := h.outPackets.set i { o with off := o.off + room } }, bs.take room, [])
        else
          let (h, more, done) := HingePort.fill quantum mine vc k { h with outPackets := h.outPackets.eraseIdx i } (room - bs.length)
          (h, bs ++ more, o :: done)

/-- One data flit sent by a port: it takes a credit, carries those owed, and stays in the retry buffer until acknowledged
(R263, R267); the packets whose last bytes it carries go with it. -/
def HingePort.sendFlit (h : HingePort) (vc : Nat) (payload : List Byte) (done : List OutPacket) : HingePort :=
  let back := (List.range 6).findIdx? fun v => h.toReturn.getD v 0 ≠ 0
  let (crvc, crn) := match back with | some v => (v, min 15 (h.toReturn.getD v 0)) | none => (0, 0)
  let f : Flit := { vc := vc, seq := h.sendSeq, ack := h.ackSeq, crvc := crvc, crn := crn, payload := payload }
  let f := { f with crc := goodCrc f }
  { h with sendSeq := (h.sendSeq + 1) % 1024, retryBuf := h.retryBuf ++ [(h.sendSeq, f)], outFlits := h.outFlits ++ [f],
           sent := h.sent ++ done.map (fun o => (h.sendSeq, o.vc, o.p)),
           credits := h.credits.modify vc (· - 1), toReturn := h.toReturn.modify crvc (· - crn) }

/-- Whether a VC may send a flit now: it has a credit, and a packet that may use the flit. -/
def HingePort.vcReady (h : HingePort) (mine : Packet → Bool) (vc : Nat) : Bool :=
  decide (h.credits.getD vc 0 ≠ 0) &&
    match h.outPackets.find? fun o => decide (o.vc = vc) && decide (o.off ≠ 0) with
    | some o => mine o.p
    | none => h.outPackets.any fun o => decide (o.vc = vc) && mine o.p

/-- One flit of the packets that may use it: its VC by deficit round-robin, 256 bytes for each flit (R270). -/
def HingePort.sendOne (h : HingePort) (weight : Nat → Nat) (quantum : Nat → Nat → Nat) (mine : Packet → Bool) :
    Option (HingePort × List OutPacket) :=
  let flows := ((List.range 6).filter fun v => h.vcReady mine v).map fun v => (v, 256, 256 * weight v)
  match h.vcTurn.pick (h.outPackets.map (·.vc)) flows with
  | none => none
  | some (v, d) =>
    let (h, bs, done) := HingePort.fill (quantum v) mine v 16 { h with vcTurn := d } 236
    some (h.sendFlit v (bs ++ List.replicate (236 - bs.length) 0) done, done)

/-- R348: the fixed ward that owns a slot of the frame, given the fixed wards in order with their slots. -/
def slotOwner : List (Nat × Nat) → Nat → Option Nat
  | [], _ => none
  | (w, n) :: ls, i => if i < n then some w else slotOwner ls (i - n)

/-- The packets that may use a slot: the owner's, or those of no fixed ward. -/
def slotTakes (fixed : List (Nat × Nat)) (i : Nat) (p : Packet) : Bool :=
  match slotOwner fixed i with
  | some w => decide (p.ward = w)
  | none => !fixed.any fun x => decide (x.1 = p.ward)

/-- R263, R267, R270, R348: the port sends flits while it holds credits and has fewer than 1,023 unacknowledged; a slot of
the frame whose owner has nothing to send is left idle. Answers the packets that have gone. -/
def HingePort.pumpGo (weight : Nat → Nat) (quantum : Nat → Nat → Nat) (fixed : List (Nat × Nat)) :
    Nat → HingePort → HingePort × List OutPacket
  | 0, h => (h, [])
  | k + 1, h =>
    if h.retryBuf.length ≥ 1023 then (h, []) else
    match (List.range (if fixed.isEmpty then 1 else 256)).findSome? fun i =>
        (h.sendOne weight quantum (slotTakes fixed ((h.slot + i) % 256))).map fun r => (i, r) with
    | none => (h, [])
    | some (i, h1, done) =>
      let (h2, more) := HingePort.pumpGo weight quantum fixed k { h1 with slot := (h.slot + i + 1) % 256 }
      (h2, done ++ more)

/-- Wards with their slots put in ascending order. -/
def insertWard (x : Nat × Nat) : List (Nat × Nat) → List (Nat × Nat)
  | [] => [x]
  | y :: ys => if x.1 < y.1 then x :: y :: ys else y :: insertWard x ys

/-- The fixed wards of the present step and the slots each owns, in ascending ward number (R348). -/
def State.fixedWards (s : State) : List (Nat × Nat) :=
  (s.wards.filter (·.bwFixed)).foldl (fun l w => insertWard (w.id, max 1 w.bwFrac) l) []

/-- The weight of a VC at a port (Table 10.9). -/
def State.vcWeight (s : State) (port vc : Nat) : Nat :=
  let io := axisDie (port / 2)
  match vc / 2 with
  | 0 => s.rd .hngDrrCfg_W_REQ io
  | 1 => s.rd .hngDrrCfg_W_RESP io
  | _ => s.rd .hngDrrCfg_W_REDUCE io

/-- The quantum of a flow within a VC: 4,112 B times the group's WEIGHT (R294) or the ward's BW_FRAC (R347, log entry 158);
0 counts as 1. -/
def State.flowQuantum (s : State) (vc flow : Nat) : Nat :=
  4112 * max 1 (if 4 ≤ vc then ((s.group flow).map fun g => g.expert 46 43).getD 1 else ((s.ward flow).map (·.bwFrac)).getD 1)

/-- The same for a port of the device: only a port that is up sends. What the packets held is given back. -/
def State.pump (s : State) (i : Nat) : State :=
  if s.rd .hngPortStat_STATE i = 2 then
    let (h, done) := HingePort.pumpGo (s.vcWeight i) s.flowQuantum s.fixedWards 1024 (s.port i)
    let s := done.foldl (fun s o => s.freeHold o.hold) (s.setPort i h)
    (i :: done.filterMap fun o => o.hold.buf.map (·.1)).foldl (fun s p => s.returnCredits p) s
  else s

/-- A packet handed to a port. -/
def State.toPort (s : State) (i vc : Nat) (p : Packet) (hold : Hold) : State :=
  let h := s.port i
  (s.setPort i { h with outPackets := h.outPackets ++ [{ vc := vc, p := p, hold := hold }] }).pump i

/-- A packet that this device sends on a chosen port, DIR set for the axis. -/
def State.launch (s : State) (p : Packet) (port : Nat) (inVc : Option (Nat × Nat)) (hold : Hold := {}) : State :=
  let a := port / 2
  let dir := p.dir % 8 - (if p.dir.testBit a then 2 ^ a else 0) + (if port % 2 = 1 then 2 ^ a else 0)
  let p := { p with dir := dir }
  s.toPort port (s.vcOf p port inVc) p hold

/-- A request of this device noted as on its way by a port (R266). -/
def State.flies (s : State) (p : Packet) (port : Nat) : State :=
  { s with hinge := { s.hinge with flying := s.hinge.flying ++ [{ dest := p.dest, pseq := p.pseq, port := port }] } }

/-- Whether a request to a destination is on its way by another port than this (R266). -/
def State.otherWay (s : State) (dest port : Nat) : Bool :=
  s.hinge.flying.any fun f => decide (f.dest = dest) && decide (f.port ≠ port)

/-- A new packet of this device: SRC and PSEQ filled (Table 10.4), a request counted as on its way, and held where
its route has changed while older requests to that destination are (R266). The second value is its PSEQ; none means
UNREACHABLE, with nothing sent. -/
def State.send (s : State) (p : Packet) (hold : Hold := {}) : State × Option Nat :=
  match s.route p none with
  | none => (s.freeHold hold, none)
  | some port =>
    let n := Smap.get 0 s.hinge.pseq p.dest
    let p := { p with src := s.node, pseq := n }
    let s := { s with hinge := { s.hinge with pseq := Smap.put 0 s.hinge.pseq p.dest ((n + 1) % 65536) } }
    if p.op ≥ 0x10 then (s.launch p port none hold, some n) else
    let waiting := Smap.get [] s.hinge.heldRoutes p.dest
    if s.otherWay p.dest port = true ∨ waiting ≠ [] then
      ({ s with hinge := { s.hinge with
        heldRoutes := Smap.put [] s.hinge.heldRoutes p.dest (waiting ++ [{ p := p, hold := hold }]) } }, some n)
    else ((s.flies p port).launch p port none hold, some n)

/-- An answer to a request packet (R261): it goes back where it came from. -/
def State.answer (s : State) (req : Packet) (op : Nat) (data : List Byte) (pz : Bool := false) : State :=
  if req.src = s.node then s else
  (s.send { dest := req.src, op := op, ward := req.ward, len := data.length / 64, pz := pz,
            addr := req.pseq, data := data }).1

/-- A NAK with a code in the first data unit (R261). -/
def State.nakTo (s : State) (req : Packet) (code : Nat) : State :=
  s.answer req opNak (BitVec.ofNat 8 code :: List.replicate 63 0)

/-- One request of an issuer to another node: the packet, and what the issuer keeps of it. -/
def State.request (s : State) (p : Packet) (r : RemoteOp) : State × Option RemoteOp :=
  match s.send p with
  | (s, none) => (s, none)
  | (s, some n) => (s, some { r with pseq := n, node := p.dest, op := p.op })

/-- A core's request; the code is UNREACHABLE where no route is usable. -/
def State.coreRequest (s : State) (c : Nat) (p : Packet) (r : RemoteOp) : State × Nat :=
  match s.request p r with
  | (s, none) => (s, cUnreachable)
  | (s, some r) =>
    let k := s.core c
    (s.setCore c { k with ops := k.ops ++ [r] }, 0)

/-- The node and packet address of a range that is not on this node. A window's address at its lender is a value
that no rule gives the borrower (log entry 8). -/
def State.farAddr (s : State) : Loc → State × Nat × Nat
  | .phys a => (s, s.node, a)
  | .remote n a => (s, n, a)
  | .window n _ _ => let (s, w) := s.free; (s, n, w.toNat % 2 ^ 52)

/-- The data of a range as it travels: a borrowed window's under the ward's key (R252). -/
def State.farData (s : State) (ward : Nat) (l : Loc) (bs : List Byte) : List Byte :=
  match l with
  | .window _ win off =>
    let key := ((s.ward ward).map (·.key)).getD 0
    (List.range (bs.length / 64)).flatMap fun i =>
      Config.xtsEncrypt key (win * 2 ^ 40 + (off + 64 * i) / 64) ((bs.drop (64 * i)).take 64)
  | _ => bs

/-- Runs of units with the same poison: poisoned units alone, clean ones together (R262). -/
def poisonRuns : List (Nat × Bool) → List (Nat × Nat × Bool)
  | [] => []
  | (u, b) :: us =>
    match poisonRuns us with
    | (v, n, false) :: rest => if b = false ∧ v = u + 1 then (u, n + 1, false) :: rest else (u, 1, b) :: (v, n, false) :: rest
    | rest => (u, 1, b) :: rest

/-- WRITE packets for the data at a place on another node, cut at 4 KiB regions and by poison (R250, R262): the
state and the first failing code. -/
def State.farWrite (s : State) (c ward : Nat) (l : Loc) (bs : List Byte) (pois : List Bool) (r : RemoteOp) : State × Nat :=
  let (s, node, a) := s.farAddr l
  let bs := s.farData ward l bs
  (pieces a bs.length).foldl (fun (acc : State × Nat) p =>
    let u0 := (p.1 - a) / 64
    let runs := poisonRuns ((List.range (p.2 / 64)).map fun i => (u0 + i, pois.getD (u0 + i) false))
    runs.foldl (fun (acc : State × Nat) q =>
      if acc.2 ≠ 0 then acc else
      acc.1.coreRequest c
        { dest := node, op := opWrite, ward := ward, len := q.2.1, pz := q.2.2, addr := a + 64 * q.1,
          data := (bs.drop (64 * q.1)).take (64 * q.2.1) } { r with dst := l, len := q.2.1 * 64 }) acc) (s, 0)

/-- The 64-byte first data unit that carries words (log entry 9). -/
def unitOf (ws : List Nat) : List Byte :=
  let bs := ws.flatMap (bytesOf 8)
  bs ++ List.replicate (64 - bs.length) 0

/-- A WRITE_SIGNAL packet without data: the signal word's address and the increment in the first unit. -/
def signalPacket (ward node addr inc : Nat) : Packet :=
  { dest := node, op := opWriteSignal, ward := ward, len := 1, addr := addr, data := unitOf [addr, inc] }

/-- An increment that the scheduler or a collective makes to a ward's signal word (R37, R51, R293): the code where
the word cannot be incremented. -/
def State.signalTo (s : State) (ward addr inc : Nat) : State × Nat :=
  match s.locate ward addr true with
  | (0, .phys a) => s.increment a inc
  | (0, .remote n a) => match s.send (signalPacket ward n a inc) with | (s, some _) => (s, 0) | (s, none) => (s, cUnreachable)
  | (0, .window _ _ _) => (s, cProtection)
  | (code, _) => (s, code)

end Sys2Proof.Machine
end

