-- ==== Sys2Proof/Machine/Tumbler.lean ====
section
/-! DEFINITION. The stochastic-rounding tumbler (R79, R80). -/
namespace Sys2Proof.Machine

/-- One draw of xorshift64* (R79): the new state and the 64-bit output. -/
def tumblerDraw (x : Word) : Word × Word :=
  let x := x ^^^ (x >>> 12)
  let x := x ^^^ (x <<< 25)
  let x := x ^^^ (x >>> 27)
  (x, x * 0x2545F4914F6CDD1D)

/-- The top srb bits of an output (R79). -/
def drawBits (srb : Nat) (out : Word) : Nat := out.toNat >>> (64 - srb)

/-- mix of R80. -/
def tumblerMix (z : Word) : Word :=
  let z := (z ^^^ (z >>> 30)) * 0xBF58476D1CE4E5B9
  let z := (z ^^^ (z >>> 27)) * 0x94D049BB133111EB
  z ^^^ (z >>> 31)

/-- The seed of the stream of SALT value salt in lane l (R80). -/
def tumblerSeed (seed : Word) (b tm tn salt l : Nat) : Word :=
  let c0 := BitVec.ofNat 64 (b * 2 ^ 32 ||| tm)
  let c1 := BitVec.ofNat 64 (tn * 2 ^ 32 ||| salt * 2 ^ 16 ||| l)
  let x := tumblerMix (seed ^^^ tumblerMix (c0 ^^^ tumblerMix c1))
  if x = 0 then 0x9E3779B97F4A7C15 else x

end Sys2Proof.Machine
end

