-- ==== Sys2Proof/Machine/Operands.lean ====
section
/-! DEFINITION. Operand forms: scalar, vector and tensor registers, accumulators (R45, R95), tensor descriptors
(R46), the core's own memory (R94), and the field rules of the instruction layouts (R305 to R307). -/
namespace Sys2Proof.Machine

/-! ### Registers -/

/-- Scalar register n; s0 reads 0 (Table 2.6). -/
def Core.sreg (k : Core) (n : Nat) : Word := if n = 0 then 0 else Smap.get 0 k.s n

/-- The core with scalar register n written; a write to s0 is discarded (R307). -/
def Core.setS (k : Core) (n : Nat) (v : Word) : Core := if n = 0 then k else { k with s := Smap.put 0 k.s n v }

/-- Where a tile's address lies now (R56): a tile that runs on another core than it began on finds its own memory at that
core, and names that core's memory where it names the one it left (log entry 14). -/
def TileCtx.here (t : TileCtx) (a : Nat) : Nat :=
  if t.home = t.seat then a
  else if a / 2 ^ 21 = t.home then t.seat * 2 ^ 21 + a % 2 ^ 21
  else if a / 2 ^ 21 = t.seat then t.home * 2 ^ 21 + a % 2 ^ 21
  else a

/-- The same for the tile of a core. -/
def Core.here (k : Core) (a : Nat) : Nat :=
  match k.tile with
  | some t => t.here a
  | none => a

/-- The address that scalar register n holds. -/
def Core.adr (k : Core) (n : Nat) : Nat := k.here (k.sreg n).toNat

/-- Lane l of vector register n. -/
def Core.lane (k : Core) (n l : Nat) : Lane := Smap.get 0 k.v (n * 64 + l)

/-- The core with the lanes of vector register n written from lane l on. -/
def Core.setLanes (k : Core) (n : Nat) : Nat → List Lane → Core
  | _, [] => k
  | l, x :: xs => Core.setLanes { k with v := Smap.put 0 k.v (n * 64 + l) x } n (l + 1) xs

/-- Tensor register n. -/
def Core.treg (k : Core) (n : Nat) : BitVec 256 := Smap.get 0 k.t n

/-- The core with tensor register n written. -/
def Core.setT (k : Core) (n : Nat) (v : BitVec 256) : Core := { k with t := Smap.put 0 k.t n v }

/-- Number of an accumulator within a core: engine, tile j and position (R95): in the square form tile aj holds
rows 64j to 64j + 63 of 64 columns, in the wide-shallow form rows 16j to 16j + 15 of 256 columns. That the
two forms share the positions of a tile is the model's choice (log entry 140). -/
def accKey (e : Nat) (wide : Bool) (tile row col : Nat) : Nat :=
  e * 32768 + tile * 4096 + (if wide then row * 256 + col else row * 64 + col)

/-- An accumulator. -/
def Core.accAt (k : Core) (key : Nat) : Acc := Smap.get {} k.acc key

/-- The core with an accumulator written. -/
def Core.setAcc (k : Core) (key : Nat) (a : Acc) : Core := { k with acc := Smap.put {} k.acc key a }

/-- The core with n accumulator tiles of engine e from tile j on cleared (R100). -/
def Core.clearTiles (k : Core) (e j n : Nat) : Core := { k with acc := Smap.clear k.acc (e * 32768 + j * 4096) (n * 4096) }

/-- Lane l's stream for a SALT value: its state, seeded at its first draw (R80). -/
def Core.stream (k : Core) (t : TileCtx) (salt l : Nat) : Word :=
  let x := Smap.get 0 k.streams (salt * 64 + l)
  if x = 0 then tumblerSeed t.seed t.b t.tm t.tn salt l else x

/-- One draw of SRB bits on lane l. -/
def Core.draw (k : Core) (t : TileCtx) (srb salt l : Nat) : Core × Nat :=
  let (x, out) := tumblerDraw (k.stream t salt l)
  ({ k with streams := Smap.put 0 k.streams (salt * 64 + l) x }, drawBits srb out)

/-- The rounding of an element on lane l: in SR mode it consumes one draw (R78). -/
def Core.rounding (k : Core) (t : TileCtx) (rnd : Rnd) (srb salt l : Nat) : Core × Rounding :=
  match rnd with
  | .sr => let (k, d) := k.draw t (srbBits srb) salt l; (k, { mode := .sr, srb := srbBits srb, draw := d })
  | m => (k, { mode := m })

/-! ### The core's own memory -/

/-- The offset in core c's own memory that a global address names (R94, Table 1.7). -/
def State.ownOff (s : State) (c a : Nat) : Option Nat :=
  if a / 2 ^ 52 % 2 ^ 12 = s.node then
    match region (a % 2 ^ 52) with
    | .core i off => if i = c then some off else none
    | _ => none
  else none

/-- Whether a range of n bytes lies in core c's own memory. -/
def State.own (s : State) (c a n : Nat) : Bool :=
  match s.ownOff c a with
  | some off => decide (off + n ≤ 2 ^ 21)
  | none => decide (n = 0)

/-- MISALIGNED unless the address is a multiple of n, NOT_LOCAL outside the core's own memory (Table 12.3, R317). -/
def State.ownCode (s : State) (c a n : Nat) : Nat :=
  firstCode [failIf (decide (a % n ≠ 0)) cMisaligned, failIf (!s.own c a n) cNotLocal]

/-- The 4 KiB blocks of core memory that a range holds (R48). -/
def blocksOf (off n : Nat) : List Nat :=
  if n = 0 then [] else (List.range ((off + n - 1) / 4096 + 1 - off / 4096)).map fun i => off / 4096 + i

/-- The blocks of an open deferred area (R136, R137): 12 bytes a value and 64 a row. -/
def Deferred.blocks (d : Deferred) : List Nat :=
  blocksOf (d.addr % 2 ^ 21) (d.rows * d.cols * 12 + d.rows * 64)

/-- Whether a range of own memory touches a block that the scoreboard holds against a read, or against a write (R48):
blocks held for release (R320), blocks that a move on its way writes, or reads (R322), and the open deferred area, into
which a program may write (R137, log entry 131). -/
def State.blocked (s : State) (c a n : Nat) (write : Bool := false) : Bool :=
  let k := s.core c
  let area := if write then [] else (k.deferred.map (·.blocks)).getD []
  match s.ownOff c a with
  | some off => (blocksOf off n).any fun b => decide (b ∈ k.blocks) || decide (b ∈ area)
      || k.ops.any fun o => decide (b ∈ o.writes) || (write && decide (b ∈ o.reads))
  | none => false

/-! ### Tensor descriptors -/

/-- Table 2.7, with counts in place of counts less one. -/
structure TDesc where
  base : Nat := 0
  rows : Nat := 1
  cols : Nat := 1
  fmtCode : Nat := 0
  trans : Bool := false
  stride : Nat := 0
  batch : Nat := 1
  bstride : Nat := 0
  rsv : Bool := false
deriving DecidableEq, Repr

/-- The descriptor that 256 bits spell. -/
def TDesc.ofBits (x : BitVec 256) : TDesc :=
  let n := x.toNat
  { base := bits n 63 0, rows := bits n 127 108 + 1, cols := bits n 107 88 + 1, fmtCode := bits n 87 84,
    trans := n.testBit 83, stride := bits n 191 160, batch := bits n 159 140 + 1, bstride := bits n 255 192,
    rsv := decide (bits n 82 64 ≠ 0) || decide (bits n 139 128 ≠ 0) }

/-- Its format; FP32 stands in where the code is reserved, which R46 refuses. -/
def TDesc.fmt (d : TDesc) : Fmt := (Fmt.ofCode d.fmtCode).getD .fp32

/-- Bytes of n elements, INT4 half a byte each, rounded up (R46). -/
def elemBytes (f : Fmt) (n : Nat) : Nat := (n * f.bits + 7) / 8

/-- Number of stored lines and elements in one. -/
def TDesc.lines (d : TDesc) : Nat := if d.trans then d.cols else d.rows
def TDesc.lineElems (d : TDesc) : Nat := if d.trans then d.rows else d.cols

/-- R46: whether the descriptor passes its checks. -/
def TDesc.ok (d : TDesc) : Bool :=
  decide (d.base % 64 = 0) && decide (d.stride % 64 = 0) && decide (d.bstride % 64 = 0)
    && (Fmt.ofCode d.fmtCode).isSome && decide (elemBytes d.fmt d.lineElems ≤ d.stride) && !d.rsv

/-- Byte address of element (r, c) of batch 0. -/
def TDesc.addr (d : TDesc) (r c : Nat) : Nat :=
  let (l, p) := if d.trans then (c, r) else (r, c)
  d.base + l * d.stride + p * d.fmt.bits / 8

/-- Bytes from BASE to the end of the last stored line of batch 0. -/
def TDesc.span (d : TDesc) : Nat := (d.lines - 1) * d.stride + elemBytes d.fmt d.lineElems

/-- The ranges of the elements of rows [r0, r0 + nr) and columns [c0, c0 + nc), line by line. -/
def TDesc.ranges (d : TDesc) (r0 nr c0 nc : Nat) : List (Nat × Nat) :=
  if nr = 0 ∨ nc = 0 then [] else
  let (l0, nl, p0, np) := if d.trans then (c0, nc, r0, nr) else (r0, nr, c0, nc)
  (List.range nl).map fun i =>
    let lo := d.base + (l0 + i) * d.stride
    let a := p0 * d.fmt.bits / 8
    (lo + a, ((p0 + np) * d.fmt.bits + 7) / 8 - a)

/-- The descriptor that 256 bits spell, as a core sees it. -/
def Core.descOf (k : Core) (x : BitVec 256) : TDesc :=
  let d := TDesc.ofBits x
  { d with base := k.here d.base }

/-- The descriptor in tensor register n. -/
def Core.desc (k : Core) (n : Nat) : TDesc := k.descOf (k.treg n)

/-- The range that the scoreboard and the locality checks see: batch 0, from BASE to its last byte. -/
def TDesc.own (s : State) (c : Nat) (d : TDesc) : Bool := s.own c d.base d.span

/-- The code of an element at an address within a byte. -/
def State.elemAt (s : State) (d : TDesc) (r c : Nat) : Nat :=
  let a := d.addr r c % 2 ^ 52
  let p := if d.trans then r else c
  match d.fmt with
  | .int4 => (s.byte a).toNat / 16 ^ (p % 2) % 16
  | f => s.peekN a (f.bits / 8)

/-- The operand at element (r, c). -/
def State.elemNum (s : State) (d : TDesc) (r c : Nat) : Num := Num.decode d.fmt (s.elemAt d r c)

/-- What reading ranges of local memory meets: damage of the words, then the state after the reads. -/
def State.readRanges (s : State) (rs : List (Nat × Nat)) : State × Nat :=
  let code := firstCode (rs.map fun r => s.damage (r.1 % 2 ^ 52) r.2)
  (rs.foldl (fun s r => s.touch (r.1 % 2 ^ 52) r.2) s, code)

/-- Bytes with an element code stored at (r, c): the address and the new byte list, merged where INT4 shares it. -/
def State.storeElem (s : State) (d : TDesc) (r c v : Nat) : State :=
  let a := d.addr r c % 2 ^ 52
  let p := if d.trans then r else c
  match d.fmt with
  | .int4 =>
    let old := (s.byte a).toNat
    let new := if p % 2 = 0 then old / 16 * 16 + v % 16 else old % 16 + v % 16 * 16
    s.poke a [BitVec.ofNat 8 new]
  | f => s.pokeN a (f.bits / 8) v

end Sys2Proof.Machine
namespace Sys2Proof

/-! ### Field rules -/

/-- Whether an unused field is 0. -/
def unused {n : Nat} (used : Bool) (v : BitVec n) : Bool := used || decide (v = 0)

/-- Table 12.2 with R312: reserved bits 0, no extension word, unused fields 0. -/
def ScalarWord.ok (w : ScalarWord) (i rd ra rb imm : Bool) : Bool :=
  decide (w.rsv = 0) && !w.ext && (i || !w.i) && unused rd w.rd && unused ra w.ra && unused rb w.rb && unused imm w.imm

/-- R306: with EXT = 0 every field of the extension word reads as 0. -/
def VecWord.norm (w : VecWord) : VecWord := if w.ext then w else { w with srb := 0, salt := 0, rsvExt := 0 }
def CvtWord.norm (w : CvtWord) : CvtWord := if w.ext then w else { w with srb := 0, salt := 0, rsvExt := 0 }
def VMemWord.norm (w : VMemWord) : VMemWord := if w.ext then w else { w with srb := 0, salt := 0, rsvExt := 0 }
def KvaWord.norm (w : KvaWord) : KvaWord := if w.ext then w else { w with srb := 0, salt := 0, rsvExt := 0 }

/-- sext of a 20-bit immediate. -/
def sext20 (x : BitVec 20) : Word := x.signExtend 64

/-- Number of 64-bit words of an instruction (R43). -/
def wordsOfExt (ext : Bool) : Nat := if ext then 2 else 1

end Sys2Proof
namespace Sys2Proof.Machine

/-! ### Expert fields -/

/-- R9, R64: an expert field that is nonzero while locked is ignored: the task completes with EXPERT_IGNORED and
IGNORED_SEEN is set. -/
def State.noteIgnored (s : State) (t : TileCtx) (fields : List Nat) : State :=
  if t.unlocked ∨ fields.all (· = 0) then s
  else (s.modTask t.req t.task fun x => { x with ignored := true }).wr .sysExpertCtl_IGNORED_SEEN 0 1

/-- The value of an expert field in force. -/
def expertVal (t : TileCtx) (v : Nat) : Nat := if t.unlocked then v else 0

end Sys2Proof.Machine
end

