-- ==== Sys2Proof/Machine/Flags.lean ====
section
/-! DEFINITION. The tile status word and the exception record (R88, R89, R117, R172). -/
namespace Sys2Proof.Machine

/-- Arithmetic flags raised at one place (R89): the flags, row, column and KGROUP, and the place of their cycle in the
order of the passes where the spec orders cycles (R98). -/
structure FlagEvent where
  flags : Nat := 0
  row : Nat := 0
  col : Nat := 0
  kgroup : Nat := 0xFFFFFFFF
  time : Nat := 0
deriving DecidableEq, Repr

/-- KGROUP of a split-K combination and of the final rounding (R89). -/
def kgSplit : Nat := 0xFFFFFFFE
def kgFinal : Nat := 0xFFFFFFFF

/-- The lexicographic order of two lists of numbers, given pairwise. -/
def lexLt : List (Nat × Nat) → Bool
  | [] => false
  | p :: ps => decide (p.1 < p.2) || (decide (p.1 = p.2) && lexLt ps)

/-- Whether event a is recorded rather than event b (R89): the earlier cycle; of one cycle the lower K group;
then the lowest flag; then the lowest row; then the lowest column. -/
def FlagEvent.before (a b : FlagEvent) : Bool :=
  lexLt [(a.time, b.time), (a.kgroup, b.kgroup), (lowestFlag a.flags, lowestFlag b.flags), (a.row, b.row), (a.col, b.col)]

/-- The event that the record takes among those of one instruction. -/
def firstEvent (es : List FlagEvent) : Option FlagEvent :=
  es.foldl (fun a e => if e.flags = 0 then a else
    match a with
    | none => some e
    | some b => if e.before b then some e else a) none

/-- The OR of the flags. -/
def allFlags (es : List FlagEvent) : Nat := es.foldl (fun a e => a ||| e.flags) 0

/-- The state with the exception record of core c latched where VALID is 0 (R89, Table 3.9). -/
def State.latchExc (s : State) (c : Nat) (t : TileCtx) (e : FlagEvent) : State :=
  if s.flag .coreExcRecord_VALID c then s else
  let s := s.wr .coreExcRecord_VALID c 1
  let s := s.wr .coreExcRecord_COL c e.col
  let s := s.wr .coreExcRecord_KGROUP c e.kgroup
  let s := s.wr .coreExcRecord_TASK_ID c t.taskId
  let s := s.wr .coreExcRecord_TILE_IDX c t.idx
  let s := s.wr .coreExcRecord_ROW c e.row
  s.wr .coreExcRecord_FLAG c (lowestFlag e.flags)

/-- The state with bits ORed into the status word of core c's tile. -/
def State.orStatus (s : State) (c bits : Nat) : State :=
  let k := s.core c
  s.setCore c { k with status := k.status ||| bits }

/-- Flags raised by an instruction of core c (R88, R89). -/
def State.raise (s : State) (c : Nat) (t : TileCtx) (es : List FlagEvent) : State :=
  let s := s.orStatus c (allFlags es)
  match firstEvent es with
  | some e => s.latchExc c t e
  | none => s

/-- Table 4.6: the engine bits of the status word. SPLIT keeps the largest value used. -/
def State.engineStatus (s : State) (c : Nat) (wide cplx pad : Bool) (split : Nat) : State :=
  let k := s.core c
  let old := bits k.status 10 9
  let st := k.status ||| (if wide then 0x100 else 0) ||| (if cplx then 0x800 else 0) ||| (if pad then 0x1000 else 0)
  s.setCore c { k with status := st - old * 0x200 + max old split * 0x200 }

/-- R90: the ward's counters at the release of a tile with a status word. -/
def State.countExc (s : State) (w status : Nat) : State :=
  let s := if status.testBit 0 then s.bump .wrdExcCount_INVALID_TILES w else s
  let s := if status.testBit 1 then s.bump .wrdExcCount_DIVZERO_TILES w else s
  let s := if status.testBit 2 then s.bump .wrdExcCount_OVERFLOW_TILES w else s
  if status.testBit 3 then s.bump .wrdExcCount_UNDERFLOW_TILES w else s

end Sys2Proof.Machine
end

