-- ==== Sys2Proof/Machine/Issue.lean ====
section
/-! DEFINITION. How an instruction of a core is fetched, checked, issued and faulted (R44, R47, R309 to R311), and
what a task's fault does (R54). -/
namespace Sys2Proof.Machine

/-- R54: the other tasks of the request are cancelled at their next tile boundary: those not begun at once, those
that run take no further tile. -/
def cancelRest (t : Nat) (ts : List Task) : List Task :=
  ts.mapIdx fun i x => if i ≠ t ∧ (x.phase = .waiting ∨ x.phase = .dispatched) then { x with phase := .cancelled } else x

/-- R310: whether a fault of a tile at place ord of its program order is the one that its task keeps: the task has none
yet, or one of the same tile that lies later in that order. Between tiles the first stays (log entry 132). -/
def Task.keeps (y : Task) (tile ord : Nat) : Bool :=
  decide (y.phase ≠ .faulted) || (decide (y.faultTile = tile) && decide (ord < y.faultOrd))

/-- R54, R310: a task faults with a code at a tile. PAGE_ABSENT of one of the request's own tasks goes to the home
scheduler first (R168, R196): the request waits as absent, with the page concerned. -/
def State.faultTask (s : State) (r t code tile : Nat) (detail : Absent := {}) (ord : Nat := 0) : State :=
  s.modReq r fun x =>
    if ((x.tasks[t]?).map fun y => y.keeps tile ord) = some false then x else
    let ts := x.tasks.modify t fun y => { y with phase := .faulted, fault := code, faultTile := tile, faultOrd := ord }
    if code = cPageAbsent ∧ t < x.ntask then
      { x with tasks := ts, phase := if x.phase = .recomputing then .recomputing else .absent,
               absents := x.absents ++ [{ detail with task := t }] }
    else { x with tasks := cancelRest t ts }

/-- An instruction of core c faults: its tile is discarded and its task faults (R35, R310). -/
def State.taskFault (s : State) (c code : Nat) (detail : Absent := {}) : State :=
  match (s.core c).tile with
  | none => s
  | some t => (s.discardTile c).faultTask t.req t.task code t.idx detail (s.core c).issued

/-- The same where the instruction's own read has already taken the tile from the core (R116, R393): the tile does not go
back to its task's queue. -/
def State.tileFault (s : State) (c : Nat) (t : TileCtx) (code : Nat) : State :=
  if (s.core c).tile.isSome then s.taskFault c code
  else (s.modTask t.req t.task fun x => { x with returned := x.returned.erase t.idx }).faultTask t.req t.task code t.idx {}
    (s.core c).issued

/-- The fetch of one word of the tile body at a ward address (R311, Table 9.2): state, code and the word; none where
the bytes lie outside this device's memory. -/
def State.fetchWord (s : State) (ward a : Nat) : State × Nat × Option Nat :=
  match s.locate ward a false with
  | (0, .phys l) => let (s, bs, d) := s.read l 8; (s, d, some (ofBytes bs))
  | (0, _) => (s, 0, none)
  | (code, _) => (s, code, none)

/-- The fetch of an instruction of n words at core c's program counter: the state and the code. A word whose opcode
Table 12.1 does not define is ILLEGAL_INSTRUCTION (R44). -/
def State.fetch (s : State) (c : Nat) (t : TileCtx) (n : Nat) : State × Nat :=
  let (s, code, w) := s.fetchWord t.ward (t.here (s.core c).pc)
  if code ≠ 0 then (s, code)
  else if (match w with | some x => !opcodeDefined x | none => false) then (s, cIllegal)
  else if n = 2 then let (s, code, _) := s.fetchWord t.ward (t.here (((s.core c).pc + 8) % 2 ^ 64)); (s, code)
  else (s, 0)

/-- What an instruction does once it has passed its decode checks: the state, with the code of its fault, or 0. -/
abbrev Run := State → TileCtx → State × Nat

/-- The core with its program counter moved past an instruction of n words. -/
def Core.past (k : Core) (n : Nat) : Core := { k with pc := (k.pc + 8 * n) % 2 ^ 64, issued := k.issued + 1 }

/-- The state with core c's program counter moved past n words. -/
def State.advance (s : State) (c n : Nat) : State := s.setCore c ((s.core c).past n)

/-- Core c waits in the instruction of n words that it has begun, and issues it again later (R48, R278). -/
def State.waitIn (s : State) (c n : Nat) (w : Waiting) : State :=
  let k := s.core c
  s.setCore c { k with phase := .waiting, wait := some w, pc := (k.pc + 2 ^ 64 - 8 * n) % 2 ^ 64, issued := k.issued - 1 }

/-- The tile that core c is running and may issue for: none where the core idles, waits or is stopped. -/
def State.issuing (s : State) (c : Nat) : Option TileCtx :=
  if (s.core c).phase = .running then (s.core c).tile else none

/-- Whether a test of the tile that core c runs holds an instruction; none does where no tile runs. -/
def State.heldFor (s : State) (c : Nat) (f : TileCtx → Bool) : Bool :=
  match s.issuing c with
  | some t => f t
  | none => false

/-- The state in which core c has left a wait of kind w: an instruction that waits is issued again. -/
def State.resumeWait (s : State) (c : Nat) (w : Waiting) : State :=
  let k := s.core c
  if k.phase = .waiting ∧ k.wait = some w then s.setCore c { k with phase := .running, wait := none } else s

/-- The fields of an instruction's words that may name scalar registers: RD, RA, RB and RC; STAT, MAREA and SIG of the
attention instructions; DAREA and REFBUF of MMF; the scalar operands of the chain that EPI or KVA runs (Tables 12.2 to
12.16a). -/
def namedRegs (slots : List (List Nat)) (x e : Nat) : List Nat :=
  let chain := if wordUnit x = 2 ∧ (wordOpc x = 0x21 ∨ wordOpc x = 0x22) then slots.getD (bits x 51 49) [] else []
  [bits x 45 40, bits x 39 34, bits x 33 28, bits x 27 22]
    ++ (if wordUnit x = 4 then [bits x 19 14, bits x 13 8, bits x 7 2] else [])
    ++ (if wordUnit x = 1 ∧ wordOpc x ≥ 2 then [bits e 39 34, bits e 33 28] else [])
    ++ (chain.flatMap fun w => [bits w 39 32, bits w 31 24, bits w 23 16]).filterMap fun v =>
        if 0x40 ≤ v ∧ v < 0x80 then some (v - 0x40) else none

/-- The stored instruction word at a tile's program counter, 0 where it lies outside this device's memory. -/
def State.codeWord (s : State) (t : TileCtx) (pc : Nat) : Nat :=
  match s.locate t.ward (t.here pc) false with
  | (0, .phys l) => s.peekN l 8
  | _ => 0

/-- R322: whether the instruction at core c's program counter names a register that an ATOM's old value is on its way
to. -/
def State.regHeld (s : State) (c : Nat) (t : TileCtx) : Bool :=
  let k := s.core c
  let due := (k.ops.filter fun o => decide (o.op = opAtomic) && decide (o.rd ≠ 0)).map (·.rd)
  !due.isEmpty && (namedRegs k.slots (s.codeWord t k.pc) (s.codeWord t ((k.pc + 8) % 2 ^ 64))).any fun r => decide (r ∈ due)

/-- The issue of an instruction of n words by core c (R47, R309): its words are fetched, its decode checks made,
then it runs; a fault ends the tile and the task. A core that is not running issues nothing (log entry 1). -/
def State.issue (s : State) (c n : Nat) (legal : Bool) (run : Run) : Out :=
  match s.issuing c with
  | none => .next s
  | some t =>
    if s.regHeld c t then .next s else
    let (s, code) := s.fetch c t n
    if code ≠ 0 then .next (s.taskFault c code)
    else if legal = false then .next (s.taskFault c cIllegal)
    else
      let (s', code) := run (s.advance c n) t
      if code ≠ 0 then .next (s'.tileFault c t code) else .next s'

/-- The same for an instruction that may have to stay where it is (R47, R48): a legal one that is held leaves the
state unchanged. -/
def State.issueUnless (s : State) (c n : Nat) (held : Bool) (legal : Bool) (run : Run) : Out :=
  if legal && held then .next s else s.issue c n legal run

/-- A result written into a scalar register. -/
def State.putS (s : State) (c rd : Nat) (v : Word) : State := s.setCore c ((s.core c).setS rd v)

end Sys2Proof.Machine
end

