-- ==== Sys2Proof/Machine/Collective.lean ====
section
/-! DEFINITION. Collective operations (11_collectives.md): geometry, opening, delivery, level 0, staging, ring
reduction, gather, all-to-all, completion and failure. -/
namespace Sys2Proof.Machine

/-! ### Groups and geometry (R274, R283, R284) -/

/-- The torus format (Table 11.1). -/
def Group.tfmt (g : Group) : Fmt := if g.w0.testBit 54 then .fp16 else .bf16

/-- Size of the group on an axis. -/
def State.gSize (s : State) (g : Group) (a : Nat) : Nat := if g.spans a then s.axisLen a else 1

/-- Number of members. -/
def State.gMembers (s : State) (g : Group) : Nat := s.gSize g 0 * s.gSize g 1 * s.gSize g 2

/-- A node's primed coordinate. -/
def Group.prime (g : Group) (n a : Nat) : Nat := if g.spans a then coord n a else 0

/-- A node's rank (R274). -/
def State.gRank (s : State) (g : Group) (n : Nat) : Nat :=
  g.prime n 0 + s.gSize g 0 * (g.prime n 1 + s.gSize g 1 * g.prime n 2)

/-- The node of a rank. -/
def State.gNode (s : State) (g : Group) (r : Nat) : Nat :=
  let gx := s.gSize g 0
  let gy := s.gSize g 1
  let put (n a v : Nat) : Nat := if g.spans a then setCoord n a v else n
  put (put (put s.node 0 (r % gx)) 1 (r / gx % gy)) 2 (r / (gx * gy))

/-- The owner's primed coordinate on an axis (R283). -/
def State.ownerPos (s : State) (g : Group) (c a : Nat) : Nat :=
  let gx := s.gSize g 0
  let gy := s.gSize g 1
  match a with
  | 0 => c % gx
  | 1 => c / gx % gy
  | _ => c / (gx * gy) % s.gSize g 2

/-- Whether a chunk travels in the plus direction (R283). -/
def State.chunkPlus (s : State) (g : Group) (c : Nat) : Bool := decide (c / s.gMembers g % 2 = 0)

/-- Whether this device owns a chunk. -/
def State.owns (s : State) (g : Group) (c : Nat) : Bool :=
  [0, 1, 2].all fun a => decide (g.prime s.node a = s.ownerPos g c a)

/-- The ring neighbour on an axis, forward or back along the chunk's direction. -/
def State.ringNext (s : State) (g : Group) (c a : Nat) (forward : Bool) : Nat :=
  s.neighbour s.node (2 * a + (if s.chunkPlus g c == forward then 0 else 1))

/-- The member's place in the order of R284 on an axis: 1 for the first, the ring's size for the owner. -/
def State.ringPlace (s : State) (g : Group) (c a : Nat) : Nat :=
  let l := s.gSize g a
  let d := if s.chunkPlus g c then (g.prime s.node a + l - s.ownerPos g c a) % l
    else (s.ownerPos g c a + l - g.prime s.node a) % l
  if d = 0 then l else d

/-! ### Finding and changing -/

def State.colOp (s : State) (g tag : Nat) : Option ColOp := s.coll.ops.find? fun o => decide (o.group = g) && decide (o.optag = tag)

def State.modOp (s : State) (g tag : Nat) (f : ColOp → ColOp) : State :=
  { s with coll := { s.coll with ops := s.coll.ops.map fun o => if o.group = g ∧ o.optag = tag then f o else o } }

/-- A field of the operation descriptor (Table 11.2). -/
def ColOp.word (o : ColOp) (n : Nat) : Nat := (o.desc.getD n 0).toNat
def ColOp.kind (o : ColOp) : Nat := bits (o.word 2) 63 60
def ColOp.isMax (o : ColOp) : Bool := (o.word 2).testBit 59
def ColOp.cfmt (o : ColOp) : Fmt := (Fmt.ofCode (bits (o.word 2) 58 55)).getD .fp32
def ColOp.dfmt (o : ColOp) : Fmt := (Fmt.ofCode (bits (o.word 2) 54 51)).getD .fp32
def ColOp.contribs (o : ColOp) : Nat := bits (o.word 2) 28 17 + 1
def ColOp.n (o : ColOp) : Nat := bits (o.word 3) 63 29 + 1
def ColOp.chunks (o : ColOp) : Nat := ceilDiv o.n 2048
def ColOp.chunkLen (o : ColOp) (c : Nat) : Nat := min o.n (2048 * (c + 1)) - 2048 * c
/-- The stride of contributions (R280). -/
def ColOp.copyStride (o : ColOp) : Nat := roundUp (o.n * o.cfmt.bits / 8) 64
/-- ALLTOALL: rows, bytes of a row and capacity. -/
def ColOp.srcRows (o : ColOp) : Nat := bits (o.word 3) 63 40 + 1
def ColOp.rowBytes (o : ColOp) : Nat := (bits (o.word 3) 39 24 + 1) * 64
def ColOp.cap (o : ColOp) : Nat := bits (o.word 3) 23 8 + 1

/-! ### Rounding on the torus (R282, R285) -/

/-- The result of a sum of terms in a format: the sign of an exact zero under R77. -/
def GroupSum.round (f : Fmt) (r : Rounding) (g : GroupSum) : Nat × Nat :=
  if g.nan then (f.nan, g.flags)
  else if g.pinf then (f.inf, g.flags)
  else if g.ninf then (f.signBit + f.inf, g.flags)
  else if g.sum.m = 0 then ((if g.terms = .negZero then f.signBit else 0), g.flags)
  else let (c, fl) := roundFloat f r (decide (g.sum.m < 0)) ⟨g.sum.m.natAbs, g.sum.e, false⟩; (c, fl ||| g.flags)

/-- The tumbler's seed for a rounding event of R285: kind 0 staging, 1 hop. -/
def torusSeed (tseed tag c kind axis rank : Nat) : Word :=
  let c0 := BitVec.ofNat 64 (tag * 2 ^ 24 ||| c)
  let c1 := BitVec.ofNat 64 (kind * 2 ^ 20 ||| axis * 2 ^ 16 ||| rank)
  let x := tumblerMix (BitVec.ofNat 64 tseed ^^^ tumblerMix (c0 ^^^ tumblerMix c1))
  if x = 0 then 0x9E3779B97F4A7C15 else x

/-- Sums rounded to the torus format, one after the other; a stochastic rounding draws once per element. -/
def torusRound (g : Group) (x : Word) : List GroupSum → List Nat × Nat
  | [] => ([], 0)
  | y :: ys =>
    if g.w0.testBit 53 then
      let (x', out) := tumblerDraw x
      let n := srbBits (g.expert 52 49)
      let (v, fl) := y.round g.tfmt { mode := .sr, srb := n, draw := drawBits n out }
      let (vs, fls) := torusRound g x' ys
      (v :: vs, fl ||| fls)
    else
      let (v, fl) := y.round g.tfmt {}
      let (vs, fls) := torusRound g x ys
      (v :: vs, fl ||| fls)

/-- The torus seed of a group in force: TSEED is an expert field. -/
def Group.tseed (g : Group) : Nat := if g.unlocked then g.w1 else 0

/-- Level 0 of one element (R282): contributors in ascending j, each one accumulator addition, or the exact
maximum; the FP32 code by RNE. -/
def level0Elem (isMax : Bool) (xs : List Num) : Nat :=
  if isMax then
    match xs with
    | [] => 0
    | x :: ys => (roundNum .fp32 {} (ys.foldl (fun a y => (Num.minMax 1 a y).1) x)).1
  else
    (roundWide .fp32 {} true (xs.foldl (fun a x => (a.addGroup (groupSum [x.term]) true).1) ({} : Acc)).value).1

/-- The maximum or sum of two torus values as a sum of terms. -/
def hopSum (isMax : Bool) (a b : Num) : GroupSum :=
  if isMax then exactSum [(Num.minMax 1 a b).1.term] else exactSum [a.term, b.term]

/-! ### Failure and completion -/

/-- The completion record (Table 11.5). -/
def State.colRecord (s : State) (o : ColOp) (code : Nat) : State :=
  let ward := ((s.group o.group).map (·.ward)).getD 0
  let pacer := o.pace.foldl (fun (a : Nat × Nat) p => if p.2 > a.2 then p else a) (s.node, 0)
  let w0 := o.optag * 2 ^ 48 + o.group * 2 ^ 42 + pacer.1 * 2 ^ 24 + code * 2 ^ 16
  let w1 := o.ovf.length * 2 ^ 32 + o.landed.length
  if o.word 6 = 0 then s
  else (s.vwrite ward (o.word 6) (bytesOf 8 w0 ++ bytesOf 8 w1 ++ bytesOf 8 (satN 64 pacer.2) ++ bytesOf 8 (s.raw - o.began)))

/-- The operation is closed: it is open no more, its slots are given back, its claims fall, granted ones too, and those
that wait are withdrawn (R276, R300, R303). -/
def State.colClose (s : State) (o : ColOp) : State :=
  let s := { s with coll := { s.coll with ops := s.coll.ops.filter fun x => !(decide (x.group = o.group) && decide (x.optag = o.optag)) } }
  let s := o.staged.foldl (fun s x => s.giveSlot o.group x.axis x.slot) s
  let s := [0, 1, 2].foldl (fun s a => s.trimClaims o.group a) s
  ((s.noteWaiting 0).noteWaiting 1).noteOpen o.group

/-- R293, R300: an operation that faults writes its record, increments neither signal, and faults the request of the
task that opened it. -/
def State.colFault (s : State) (o : ColOp) (code : Nat) : State :=
  let s := (s.colRecord o code).colClose o
  let s := s.bump .colGroupStat_FAULTS o.group
  s.faultTask o.task.1 o.task.2 code 0

/-- The same by name. -/
def State.colFaultAt (s : State) (g tag code : Nat) : State :=
  match s.colOp g tag with
  | some o => s.colFault o code
  | none => s

/-- R299: a member that cannot reach its next member faults every open operation of the group. -/
def State.colUnreachable (s : State) (gid : Nat) : State :=
  (s.coll.ops.filter fun o => decide (o.group = gid)).foldl (fun s o => s.colFaultAt gid o.optag cUnreachable) s

/-! ### Landing (R286, R293) -/

/-- The chunks that land at this member, in ascending order. -/
def State.landingChunks (s : State) (g : Group) (o : ColOp) : List Nat :=
  if o.kind = 3 then List.range (s.gMembers g)
  else (List.range o.chunks).filter fun c => decide (o.kind ≠ 0) || s.owns g c

/-- R293: CHUNK_SIG is incremented for the chunks that have landed, in ascending order, each after every lower one. -/
def State.colSignal (s : State) (gid tag : Nat) : State :=
  match s.group gid, s.colOp gid tag with
  | some g, some o =>
    let ready := ((s.landingChunks g o).takeWhile fun c => decide (c ∈ o.landed)).length
    if ready ≤ o.signalled then s else
    let s := s.modOp gid tag fun o => { o with signalled := ready }
    if o.word 4 = 0 then s else
    let (s, code) := s.signalTo g.ward (o.word 4) (ready - o.signalled)
    if code ≠ 0 then s.colFaultAt gid tag code else s
  | _, _ => s

/-- A chunk's values, in torus format or (with one member) in FP32, written to DST in DFMT (R286); poison writes
poisoned words (R301). -/
def State.landChunk (s : State) (g : Group) (o : ColOp) (c : Nat) (src : Fmt) (vals : List Nat) (poison : Bool) : State :=
  let wd := o.dfmt.bits / 8
  let a := o.word 1 + 2048 * c * wd
  let bs := vals.flatMap fun v => bytesOf wd (if src = o.dfmt then v else (roundNum o.dfmt {} (Num.decode src v)).1)
  let code := s.rangeCode g.ward a bs.length true
  if code ≠ 0 then s.colFault o code else
  let s := s.vwrite g.ward a bs poison
  (s.modOp g.id o.optag fun o => { o with landed := c :: o.landed }).colSignal g.id o.optag

/-! ### Packets (R304) -/

/-- The tag of Table 11.7 for KIND 0, 1 and 3. -/
def colTag (kind g tag axis c : Nat) : Nat := kind * 2 ^ 50 + g * 2 ^ 44 + tag * 2 ^ 28 + axis * 2 ^ 26 + c

/-- A REDUCE_WRITE of an operation; a member that cannot be reached faults every open operation of the group
(R299). -/
def State.colSend (s : State) (g : Group) (tag dest addr : Nat) (data : List Byte) (pz : Bool) (hold : Hold := {}) : State :=
  let n := Smap.get 0 s.hinge.pseq dest
  let s := s.modOp g.id tag fun o => { o with out := o.out ++ [(dest, n)] }
  match s.send { dest := dest, op := opReduceWrite, ward := g.ward, len := ceilDiv data.length 64, pz := pz,
                 addr := addr, data := data ++ List.replicate (roundUp data.length 64 - data.length) 0 } hold with
  | (s, some _) => s
  | (s, none) => s.colUnreachable g.id

/-- The bytes of a chunk in torus format. -/
def chunkBytes (vals : List Nat) : List Byte := vals.flatMap (bytesOf 2)

/-- The values that bytes spell in torus format. -/
def chunkVals (n : Nat) (bs : List Byte) : List Nat := (List.range n).map fun i => ofBytes ((bs.drop (2 * i)).take 2)

/-- The onward copies of R286: along axis a to the next member until the ring closes at the owner's place, and onto
every lower spanned axis. origin true begins at the owner, on every spanned axis. -/
def State.gatherOn (s : State) (g : Group) (o : ColOp) (c : Nat) (axis : Nat) (origin : Bool) (vals : List Nat) (pz : Bool) : State :=
  g.axes.reverse.foldl (fun s a =>
    let next := s.ringNext g c a true
    let along := decide (a = axis) && decide (g.prime next a ≠ s.ownerPos g c a)
    if (origin || along || decide (a < axis)) && decide (s.gSize g a > 1) then
      s.colSend g o.optag next (colTag 1 g.id o.optag a c) (chunkBytes vals) pz
    else s) s

/-- A chunk has its final value here, at its owner: it lands, and an ALLREDUCE sends the copy back (R286). -/
def State.ownerDone (s : State) (g : Group) (o : ColOp) (c : Nat) (vals : List Nat) (pz : Bool) : State :=
  let s := s.landChunk g o c g.tfmt vals pz
  if o.kind = 1 then s.gatherOn g o c 3 true vals pz else s

/-- The time this member waited on another, added to its account (R297). -/
def ColOp.waited (o : ColOp) (n t : Nat) : ColOp := { o with pace := Smap.put 0 o.pace n (Smap.get 0 o.pace n + t) }

/-- R288, R291: a staged chunk whose partial is complete is sent on once the next member is ready for it; the packet holds its
slot until its last flit is sent. -/
def State.sendPartial (s : State) (g : Group) (tag a c : Nat) : State :=
  match s.colOp g.id tag with
  | none => s
  | some o =>
    match o.staged.find? fun x => decide (x.axis = a) && decide (x.chunk = c) with
    | none => s
    | some x =>
      match o.readyIn.find? fun y => decide (y.1 = axisChunk a c) with
      | none => s
      | some r =>
        if x.added = false ∨ s.ringPlace g c a = s.gSize g a then s else
        let io := axisDie a
        let next := s.ringNext g c a true
        let n := o.chunkLen c
        let (s, bs, d) := s.read (slotAddr io x.slot) (2 * n)
        let s := s.modOp g.id tag fun o =>
          { (o.waited next (r.2 - x.at_)) with
            staged := o.staged.filter fun y => !(decide (y.axis = a) && decide (y.chunk = c)) }
        s.colSend g tag next (colTag 0 g.id tag a c) bs (x.poison || decide (d ≠ 0)) { slot := some (g.id, a, x.slot) }

/-- R284, R286: the axis's ring is done at its owner: the value goes to the next spanned axis, or the chunk is done. -/
def State.axisDone (s : State) (g : Group) (tag a c : Nat) (vals : List Nat) (pz : Bool) : State :=
  match s.colOp g.id tag with
  | none => s
  | some o =>
    match g.axes.find? fun b => decide (a < b) with
    | some b => s.modOp g.id tag fun o => { o with vals := o.vals ++ [{ axis := b, chunk := c, vals := vals, poison := pz }] }
    | none => s.ownerDone g o c vals pz

/-- R285: a partial meets the staged value: one exact sum or maximum, one rounding; the result stays in the slot
until it is sent, or goes on at the owner. -/
def State.addPartial (s : State) (g : Group) (tag a c : Nat) (vals : List Nat) (pz : Bool) : State :=
  match s.colOp g.id tag with
  | none => s
  | some o =>
    match o.staged.find? fun x => decide (x.axis = a) && decide (x.chunk = c) with
    | none => s.modOp g.id tag fun o => { o with partials := o.partials ++ [{ axis := a, chunk := c, vals := vals, poison := pz }] }
    | some x =>
      let io := axisDie a
      let n := o.chunkLen c
      let (s, bs, d) := s.read (slotAddr io x.slot) (2 * n)
      let v := chunkVals n bs
      let pz := pz || x.poison || decide (d ≠ 0)
      let sums := (List.zip vals v).map fun p => hopSum o.isMax (Num.decode g.tfmt p.1) (Num.decode g.tfmt p.2)
      let r := (torusRound g (torusSeed g.tseed tag c 1 a (s.gRank g s.node)) sums).1
      let prev := s.ringNext g c a false
      let s := s.modOp g.id tag fun o => o.waited prev (s.raw - x.at_)
      if s.ringPlace g c a = s.gSize g a then
        let s := s.modOp g.id tag fun o =>
          { o with staged := o.staged.filter fun y => !(decide (y.axis = a) && decide (y.chunk = c)) }
        (s.axisDone g tag a c r pz).giveSlot g.id a x.slot
      else
        let s := s.write (slotAddr io x.slot) (chunkBytes r)
        let s := s.modOp g.id tag fun o => { o with staged := o.staged.map fun y =>
          if y.axis = a ∧ y.chunk = c then { y with added := true, poison := pz } else y }
        s.sendPartial g tag a c

/-! ### Opening (R278, R279) -/

/-- R278, R279: whether a descriptor is malformed. -/
def colDescBad (g : Group) (d : List Word) : Bool :=
  let w (n : Nat) : Nat := (d.getD n 0).toNat
  let kind := bits (w 2) 63 60
  let cf := bits (w 2) 58 55
  let df := bits (w 2) 54 51
  let tf := if g.w0.testBit 54 then 2 else 3
  decide (kind > 3) || decide (bits (w 2) 16 0 ≠ 0)
    || (if kind = 3 then decide (bits (w 3) 7 0 ≠ 0) else decide (bits (w 3) 28 0 ≠ 0))
    || [0, 1, 4, 5, 6, 7].any (fun n => decide (w n % 64 ≠ 0))
    || (match kind with
        | 2 => decide (cf ≠ tf) || decide (df ≠ tf ∧ df ≠ 4) || (w 2).testBit 59 || decide (bits (w 2) 28 17 ≠ 0)
        | 3 => decide (cf ≠ 0) || decide (df ≠ 0) || (w 2).testBit 59
        | _ => decide (cf ≠ 2 ∧ cf ≠ 3 ∧ cf ≠ 4) || decide (df ≠ tf ∧ df ≠ 4))

/-- What opening or joining answers: a fault code, a wait, or the operation's tag. -/
inductive Opening where
  | fault (code : Nat)
  | wait
  | op (g tag : Nat)
deriving DecidableEq, Repr

/-- The open operation of a ward's groups whose descriptor lies at an address (R278). -/
def State.colJoin (s : State) (ward addr : Nat) : Option ColOp :=
  s.coll.ops.find? fun o => decide (o.addr = addr) &&
    match s.group o.group with
    | some g => decide (g.ward = ward) && decide (g.phase = .active)
    | none => false

/-- R278: an instruction's reference to an operation descriptor, which is read once, at opening. -/
def State.colOpen (s : State) (t : TileCtx) (addr : Nat) : State × Opening :=
  if addr % 64 ≠ 0 then (s, .fault cDescriptor) else
  match s.colJoin t.ward addr with
  | some o => (s, .op o.group o.optag)
  | none =>
  let (s, bs, code) := s.vread t.ward addr 64
  if code ≠ 0 then (s, .fault code) else
  let d := wordsIn bs
  let w2 := (d.getD 2 0).toNat
  let gid := bits w2 50 45
  let tag := bits w2 44 29
  match s.group gid with
  | none => (s, .fault cDescriptor)
  | some g =>
    if g.ward ≠ t.ward ∨ g.phase ≠ .active then (s, .fault cDescriptor) else
    match s.colOp gid tag with
    | some _ => (s, .fault cDescriptor)
    | none =>
      if colDescBad g d then (s, .fault cDescriptor)
      else if s.coll.ops.length ≥ 256 then (s, .wait)
      else
        let kind := bits w2 63 60
        let locked := kind ≠ 3 ∧ (d.getD 7 0) ≠ 0
        let s := if locked then s.noteIgnored t [1] else s
        let d := if locked ∧ t.unlocked = false then d.set 7 0 else d
        let o : ColOp := { group := gid, optag := tag, addr := addr, desc := d, task := (t.req, t.task), began := s.raw }
        let s := { s with coll := { s.coll with ops := s.coll.ops ++ [o] } }
        (s.noteOpen gid, .op gid tag)

/-! ### Delivery (R280, R281) -/

/-- R281: n elements from element e on of copy j are counted as delivered; a count beyond a chunk's elements faults
the operation. -/
def State.deliver (s : State) (gid tag j e n : Nat) : State :=
  match s.colOp gid tag with
  | none => s
  | some o =>
    if n = 0 then s else
    let cs := (List.range ((e + n - 1) / 2048 + 1 - e / 2048)).map fun i => e / 2048 + i
    let part (c : Nat) : Nat := min (e + n) (2048 * (c + 1)) - max e (2048 * c)
    if cs.any fun c => decide (Smap.get 0 o.delivered (c * 4096 + j) + part c > o.chunkLen c) then s.colFault o cDescriptor
    else s.modOp gid tag fun o =>
      { o with delivered := cs.foldl (fun m c => Smap.put 0 m (c * 4096 + j) (Smap.get 0 m (c * 4096 + j) + part c)) o.delivered }

/-- Whether a chunk is ready at level 0 (R281). -/
def ColOp.level0Ready (o : ColOp) (c : Nat) : Bool :=
  decide (c < o.chunks) && (List.range o.contribs).all fun j => decide (Smap.get 0 o.delivered (c * 4096 + j) = o.chunkLen c)

/-- ALLGATHER: one chunk of the owner's is copied and sent from SRC, once (R286). -/
def State.gatherChunk (s : State) (g : Group) (tag c : Nat) : State :=
  match s.colOp g.id tag with
  | none => s
  | some o =>
    if o.level0Ready c = false ∨ c ∈ o.reduced ∨ s.owns g c = false then s else
    let (s, bs, code) := s.vread g.ward (o.word 0 + 4096 * c) (2 * o.chunkLen c)
    if code ≠ 0 ∧ code ≠ cPoison ∧ code ≠ cUncorrectable then s.colFaultAt g.id tag code else
    let vals := chunkVals (o.chunkLen c) bs
    let s := s.modOp g.id tag fun o => { o with reduced := c :: o.reduced }
    (s.landChunk g o c g.tfmt vals (decide (code ≠ 0))).gatherOn g o c 3 true vals (decide (code ≠ 0))

/-- The chunks of an ALLGATHER that are ready leave, in ascending order, each as soon as its last element is delivered
(R281, R286). -/
def State.gatherReady (s : State) (gid tag : Nat) : State :=
  match s.group gid, s.colOp gid tag with
  | some g, some o => if o.kind = 2 then (List.range o.chunks).foldl (fun s c => s.gatherChunk g tag c) s else s
  | _, _ => s

/-- One source block of ALLTOALL is complete here; CHUNK_SIG follows in ascending rank (R296). -/
def State.blockDone (s : State) (gid tag src : Nat) : State :=
  (s.modOp gid tag fun o => { o with landed := src :: o.landed }).colSignal gid tag

/-- ALLTOALL: rows, padding and counts go to their members, in 4 KiB pieces; the last packet of a block carries the
count (log entry 11). A row that is sent from where the ward may not read, or this member's own block where it may not
write, faults the operation before any row is sent. -/
def State.sendRows (s : State) (g : Group) (tag : Nat) : State :=
  match s.colOp g.id tag with
  | none => s
  | some o =>
    let p := s.gMembers g
    let me := s.gRank g s.node
    let rb := o.rowBytes
    let (s, lb, code) := s.vread g.ward (o.word 7) (2 * o.srcRows)
    if code ≠ 0 then s.colFaultAt g.id tag code else
    let list := (List.range o.srcRows).map fun i => ofBytes ((lb.drop (2 * i)).take 2)
    if list.any fun r => decide (r ≠ 0xFFFF) && decide (r ≥ p) then s.colFaultAt g.id tag cDescriptor else
    let slotOf (i : Nat) : Nat := ((list.take i).filter fun r => decide (r = list.getD i 0xFFFF)).length
    let code := firstCode ((List.range o.srcRows).map (fun i =>
      if list.getD i 0xFFFF = 0xFFFF ∨ slotOf i ≥ o.cap then 0 else s.rangeCode g.ward (o.word 0 + i * rb) rb false) ++
      [s.rangeCode g.ward (o.word 1 + me * o.cap * rb) (o.cap * rb) true,
       s.rangeCode g.ward (o.word 1 + p * o.cap * rb + 4 * me) 4 true])
    if code ≠ 0 then s.colFaultAt g.id tag code else
    let dropped := (List.range o.srcRows).filter fun i => decide (list.getD i 0xFFFF ≠ 0xFFFF) && decide (slotOf i ≥ o.cap)
    let s := s.modOp g.id tag fun o => { o with ovf := if o.word 6 = 0 then [] else dropped, sentRows := true }
    let s := if o.word 6 = 0 then s else s.vwrite g.ward (o.word 6 + 64) (dropped.flatMap (bytesOf 4))
    (List.range p).foldl (fun s d =>
      let rows := (List.range o.srcRows).filter fun i => decide (list.getD i 0xFFFF = d) && decide (slotOf i < o.cap)
      let s := (List.range o.cap).foldl (fun s k =>
        let (s, bs, code) := match rows[k]? with
          | some i => s.vread g.ward (o.word 0 + i * rb) rb
          | none => (s, List.replicate rb (0 : Byte), 0)
        let pz := decide (code ≠ 0)
        if d = me then s.vwrite g.ward (o.word 1 + (me * o.cap + k) * rb) bs pz
        else (pieces 0 rb).foldl (fun s q =>
          s.colSend g tag (s.gNode g d) (2 * 2 ^ 50 + g.id * 2 ^ 44 + tag * 2 ^ 28 + q.1 / 4096 * 2 ^ 16 + k)
            ((bs.drop q.1).take q.2) pz) s) s
      if d = me then
        (s.vwrite g.ward (o.word 1 + p * o.cap * rb + 4 * me) (bytesOf 4 rows.length)).blockDone g.id tag me
      else s.colSend g tag (s.gNode g d) (2 * 2 ^ 50 + g.id * 2 ^ 44 + tag * 2 ^ 28 + 0xFFF * 2 ^ 16 + 0xFFFF)
        (unitOf [rows.length]) false) s

/-! ### The commands -/

/-- LEVEL0_REDUCTION (R282): once every contributor has delivered the chunk. -/
def execLevel0Reduction (g optag chunk : Nat) (s : State) : Out :=
  match s.group g, s.colOp g optag with
  | some gr, some o =>
    if o.kind > 1 ∨ o.level0Ready chunk = false ∨ chunk ∈ o.reduced then .next s else
    let wd := o.cfmt.bits / 8
    let n := o.chunkLen chunk
    let (s, copies, bad) := (List.range o.contribs).foldl (fun (a : State × List (List Byte) × Nat) j =>
      let (s, bs, code) := a.1.vread gr.ward (o.word 0 + j * o.copyStride + 2048 * chunk * wd) (n * wd)
      (s, a.2.1 ++ [bs], firstCode [a.2.2, code])) (s, [], 0)
    if bad ≠ 0 ∧ bad ≠ cPoison ∧ bad ≠ cUncorrectable then .next (s.colFault o bad) else
    let vals := (List.range n).map fun i =>
      level0Elem o.isMax (copies.map fun bs => Num.decode o.cfmt (ofBytes ((bs.drop (wd * i)).take wd)))
    let s := s.modOp g optag fun o => { o with reduced := chunk :: o.reduced }
    match gr.axes with
    | a :: _ => .next (s.modOp g optag fun o =>
        { o with vals := o.vals ++ [{ axis := a, chunk := chunk, vals := vals, poison := decide (bad ≠ 0) }] })
    | [] =>
      if o.dfmt = .fp32 then .next (s.landChunk gr o chunk .fp32 vals (decide (bad ≠ 0)))
      else
        let (r, fl) := torusRound gr (torusSeed gr.tseed optag chunk 0 0 0)
          (vals.map fun v => exactSum [(Num.decode .fp32 v).term])
        .next ((s.countExc gr.ward fl).landChunk gr o chunk gr.tfmt r (decide (bad ≠ 0)))
  | _, _ => .next s

/-- The order of staging (R292): ascending, or LIST, which is read once; the code where the read fails, or where LIST does
not name every chunk once. -/
def State.stagingOrder (s : State) (g : Group) (o : ColOp) : State × List Nat × Nat :=
  match o.order with
  | some l => (s, l, 0)
  | none =>
    if o.word 7 = 0 then (s, List.range o.chunks, 0) else
    let (s, bs, code) := s.vread g.ward (o.word 7) (4 * o.chunks)
    let l := (List.range o.chunks).map fun i => ofBytes ((bs.drop (4 * i)).take 4)
    let code := firstCode [code, failIf (!((List.range o.chunks).all fun c => decide (c ∈ l))) cDescriptor]
    (s.modOp g.id o.optag fun o => { o with order := some l }, l, code)

/-- STAGING (R284, R288, R291): the member's value for a chunk is rounded to torus format (on the first axis),
staged in a slot that is held whole, and the previous member is told; a claim that cannot be met waits, and is withdrawn
where the group's own slots serve first (R303). -/
def execStaging (g optag chunk : Nat) (s : State) : Out :=
  match s.group g, s.colOp g optag with
  | some gr, some o =>
    let (s, order, code) := s.stagingOrder gr o
    if code ≠ 0 then .next (s.colFault o code) else
    match o.vals.find? fun v => decide (v.chunk = chunk) with
    | none => .next s
    | some v =>
      let a := v.axis
      let first := gr.axes.head? = some a
      let earlier := (order.takeWhile fun c => decide (c ≠ chunk)).any fun c =>
        o.vals.any fun x => decide (x.axis = a) && decide (x.chunk = c)
      let k := axisChunk a chunk
      if earlier then .next s else
      match s.takeSlot gr a (decide (k ∈ o.granted)) with
      | none =>
        if s.slotsUsed gr a ≥ gr.maxHold ∨ k ∈ o.waiting then .next s else
        let io := axisDie a
        let s := s.modOp g optag fun o => { o with waiting := o.waiting ++ [k] }
        .next ((s.noteWaiting io).bump .colSlotStat_WAIT_EVENTS io)
      | some (s, n) =>
        let (codes, fl) := if first then
            torusRound gr (torusSeed gr.tseed optag chunk 0 a (s.gRank gr s.node))
              (v.vals.map fun x => exactSum [(Num.decode .fp32 x).term])
          else (v.vals, 0)
        let s := if first then s.countExc gr.ward fl else s
        let s := s.write (slotAddr (axisDie a) n) (chunkBytes codes)
        let place := s.ringPlace gr chunk a
        let late := match o.readyIn.find? fun y => decide (y.1 = k) with | some y => s.raw - y.2 | none => 0
        let s := s.modOp g optag fun o =>
          { (o.waited s.node late) with
            vals := o.vals.filter fun x => !(decide (x.axis = a) && decide (x.chunk = chunk)),
            granted := o.granted.filter fun x => decide (x ≠ k),
            waiting := o.waiting.filter fun x => decide (x ≠ k),
            staged := o.staged ++ [{ axis := a, chunk := chunk, slot := n, poison := v.poison, added := decide (place = 1), at_ := s.raw }] }
        let s := s.noteWaiting (axisDie a)
        if s.gSize gr a = 1 then
          let s := s.modOp g optag fun o => { o with staged := o.staged.filter fun x => !(decide (x.axis = a) && decide (x.chunk = chunk)) }
          .next ((s.axisDone gr optag a chunk codes v.poison).giveSlot g a n)
        else if place = 1 then .next (s.sendPartial gr optag a chunk)
        else
          let s := s.colSend gr optag (s.ringNext gr chunk a false) (colTag 3 g optag a chunk) [] false
          match o.partials.find? fun x => decide (x.axis = a) && decide (x.chunk = chunk) with
          | some x =>
            let s := s.modOp g optag fun o =>
              { o with partials := o.partials.filter fun x => !(decide (x.axis = a) && decide (x.chunk = chunk)) }
            .next (s.addPartial gr optag a chunk x.vals x.poison)
          | none => .next s
  | _, _ => .next s

/-- SLOT_CLAIM_GRANTED (R289, R290): the first group in order gets a free slot for its oldest waiting chunk. -/
def execSlotClaimGranted (g axis : Nat) (s : State) : Out :=
  let io := axisDie axis
  match s.firstClaim io with
  | none => .next s
  | some gr =>
    if s.rd .colSlotStat_FREE io = 0 ∨ gr.id ≠ g ∨ s.claimWaits gr axis = false then .next s else
    match s.coll.ops.find? fun o => decide (o.group = g) && o.waiting.any fun k => decide (keyAxis k = axis) with
    | none => .next s
    | some o =>
      match o.waiting.find? fun k => decide (keyAxis k = axis) with
      | none => .next s
      | some k =>
        let s := s.modOp g o.optag fun o => { o with waiting := o.waiting.erase k, granted := o.granted ++ [k] }
        .next ((s.setClaims gr axis (gr.claims.getD axis 0 + 1)).noteWaiting io)

/-- A REDUCE_WRITE handled (R277, R304): NAK with UNMAPPED where the group is not active here or is another ward's, else
its effect and the acknowledgement. One that comes before its operation is open here waits for it (R300). -/
def State.reduceWrite (s : State) (p : Packet) (f : State → Group → ColOp → State) : State :=
  match s.group (bits p.addr 49 44) with
  | none => s.nakTo p cUnmapped
  | some g =>
    if g.ward ≠ p.ward ∨ g.phase = .activating then s.nakTo p cUnmapped else
    match s.colOp g.id (bits p.addr 43 28) with
    | none => { s with coll := { s.coll with early := s.coll.early ++ [p] } }
    | some o => f (s.answer p opAck []) g o

/-- CHUNK_READY (R291): the partial may be sent. -/
def State.onChunkReady (s : State) (p : Packet) : State :=
  s.reduceWrite p fun s g o =>
    let a := bits p.addr 27 26
    let c := bits p.addr 23 0
    (s.modOp g.id o.optag fun o => { o with readyIn := o.readyIn ++ [(axisChunk a c, s.raw)] }).sendPartial g o.optag a c

/-- REDUCE_DATA (R285). -/
def State.onReduceData (s : State) (p : Packet) : State :=
  s.reduceWrite p fun s g o =>
    let c := bits p.addr 23 0
    s.addPartial g o.optag (bits p.addr 27 26) c (chunkVals (o.chunkLen c) p.data) p.pz

/-- GATHER_DATA (R286): written to DST and passed on unchanged. -/
def State.onGatherData (s : State) (p : Packet) : State :=
  s.reduceWrite p fun s g o =>
    let c := bits p.addr 23 0
    let vals := chunkVals (o.chunkLen c) p.data
    (s.landChunk g o c g.tfmt vals p.pz).gatherOn g o c (bits p.addr 27 26) false vals p.pz

/-- ALL_TO_ALL_DATA (R295, R296): a row piece into its slot; the count ends the sender's block (log entry 11). A place
where the ward may not write faults the operation. -/
def State.onAllToAllData (s : State) (p : Packet) : State :=
  s.reduceWrite p fun s g o =>
    let src := s.gRank g p.src
    let slot := bits p.addr 15 0
    let piece := bits p.addr 27 16
    let last := decide (slot = 0xFFFF) && decide (piece = 0xFFF)
    let a := if last then o.word 1 + s.gMembers g * o.cap * o.rowBytes + 4 * src
      else o.word 1 + (src * o.cap + slot) * o.rowBytes + 4096 * piece
    let bs := if last then p.data.take 4 else p.data
    let code := s.rangeCode g.ward a bs.length true
    if code ≠ 0 then s.colFault o code
    else if last then (s.vwrite g.ward a bs).blockDone g.id o.optag src
    else s.vwrite g.ward a bs p.pz

/-- Whether every chunk of the member is done and its contributions are no longer read (R293). -/
def State.colFinished (s : State) (g : Group) (o : ColOp) : Bool :=
  (s.landingChunks g o).all (fun c => decide (c ∈ o.landed)) && o.staged.isEmpty && o.vals.isEmpty &&
  (match o.kind with
   | 0 => (List.range o.chunks).all fun c => decide (c ∈ o.reduced)
   | 1 => (List.range o.chunks).all fun c => decide (c ∈ o.reduced)
   | 2 => (List.range o.chunks).all fun c => !s.owns g c || decide (c ∈ o.landed)
   | _ => o.sentRows)

/-- OPERATION_DONE (R293): RECORD, then DONE_SIG. -/
def execOperationDone (g optag : Nat) (s : State) : Out :=
  match s.group g, s.colOp g optag with
  | some gr, some o =>
    if s.colFinished gr o then
      let s := (s.colRecord o 0).colClose o
      if o.word 5 = 0 then .next s else
      let (s, code) := s.signalTo gr.ward (o.word 5) 1
      .next (if code ≠ 0 then s.faultTask o.task.1 o.task.2 code 0 else s)
    else .next s
  | _, _ => .next s

/-- OP_LIMIT_EXPIRY (R300): WAIT_TIMEOUT. -/
def execOpLimitExpiry (g optag : Nat) (s : State) : Out :=
  match s.colOp g optag with
  | some o => .next (s.colFault o cWaitTimeout)
  | none => .next s

/-! ### Packets -/

/-- The handler of a REDUCE_WRITE by the KIND of its tag (Table 11.7). -/
def State.onReduceWrite (s : State) (p : Packet) : State :=
  match bits p.addr 51 50 with
  | 0 => s.onReduceData p
  | 1 => s.onGatherData p
  | 2 => s.onAllToAllData p
  | _ => s.onChunkReady p

/-- The packets that came before an operation was open are handled once it is. -/
def State.takeEarly (s : State) (g tag : Nat) : State :=
  let mine (p : Packet) : Bool := decide (bits p.addr 49 44 = g) && decide (bits p.addr 43 28 = tag)
  let now := s.coll.early.filter mine
  let s := { s with coll := { s.coll with early := s.coll.early.filter fun p => !mine p } }
  now.foldl (fun s p => s.onReduceWrite p) s

/-- Whether a packet is for this device. -/
def State.forMe (s : State) (p : Packet) : Bool := s.fclk && decide (p.dest = s.node)

/-- CHUNK_READY (R291). -/
def execChunkReady (p : Packet) (s : State) : Out := Out.when (s.forMe p) s (s.onChunkReady p)

/-- REDUCE_DATA (R285). -/
def execReduceData (p : Packet) (s : State) : Out := Out.when (s.forMe p) s (s.onReduceData p)

/-- GATHER_DATA (R286). -/
def execGatherData (p : Packet) (s : State) : Out := Out.when (s.forMe p) s (s.onGatherData p)

/-- ALL_TO_ALL_DATA (R295). -/
def execAllToAllData (p : Packet) (s : State) : Out := Out.when (s.forMe p) s (s.onAllToAllData p)

/-! ### The instructions (R323) -/

/-- COL.RS, COL.AR, COL.AG and COL.A2A: open or join, then copy j is delivered. -/
def colRun (c : Nat) (w : ScalarWord) (kind : Nat) : Run := fun s t =>
  let addr := (s.core c).adr w.ra.toNat
  let j := w.imm.toNat % 4096
  match s.colOpen t addr with
  | (s, .fault code) => (s, code)
  | (s, .wait) =>
    (s.waitIn c 1 .opening, 0)
  | (s, .op gid tag) =>
    match s.group gid, s.colOp gid tag with
    | some g, some o =>
      if o.kind ≠ kind ∨ j ≥ o.contribs ∨ (kind = 3 ∧ j ≠ 0) then (s, cDescriptor)
      else if kind = 3 then
        if o.sentRows then (s.colFault o cDescriptor, 0) else ((s.takeEarly gid tag).sendRows g tag, 0)
      else
        let s := (s.takeEarly gid tag).deliver gid tag j 0 o.n
        (s.gatherReady gid tag, 0)
    | _, _ => (s, 0)

/-- A collective instruction; one that waits for room among the open operations is issued again (R278). -/
def State.colInstr (s : State) (c : Nat) (w : ScalarWord) (kind : Nat) : Out :=
  (s.resumeWait c .opening).issue c 1 (w.ok false false true false true && decide (w.imm.toNat < 4096)) (colRun c w kind)

/-- COL.RS (KIND 0). -/
def execColRs (c : Nat) (w : ScalarWord) (s : State) : Out := s.colInstr c w 0

/-- COL.AR (KIND 1). -/
def execColAr (c : Nat) (w : ScalarWord) (s : State) : Out := s.colInstr c w 1

/-- COL.AG (KIND 2). -/
def execColAg (c : Nat) (w : ScalarWord) (s : State) : Out := s.colInstr c w 2

/-- COL.A2A (KIND 3). -/
def execColA2a (c : Nat) (w : ScalarWord) (s : State) : Out := s.colInstr c w 3

end Sys2Proof.Machine
end

