-- ==== Sys2Proof/Machine/Tile.lean ====
section
/-! DEFINITION. A tile's beginning and end: its registers (R34, R45), the release of its outputs at END (R35, R145,
R280), and what is still on its way (R17, R54). -/
namespace Sys2Proof.Machine

/-! ### The beginning -/

/-- A field of a task descriptor (Table 2.2). -/
def Task.word (x : Task) (n : Nat) : Nat := (x.desc.getD n 0).toNat
def Task.stream (x : Task) : Nat := x.word 0
def Task.taskId (x : Task) : Nat := bits (x.word 1) 63 48
def Task.contract (x : Task) : Nat := bits (x.word 1) 47 40
def Task.trap (x : Task) : Bool := x.unlocked && (x.word 1).testBit 39
def Task.splitK (x : Task) : Nat := bits (x.word 1) 31 16
def Task.startValue (x : Task) : Nat := bits (x.word 1) 15 0
def Task.tileFirst (x : Task) : Nat := bits (x.word 2) 63 40
def Task.tileCount (x : Task) : Nat := bits (x.word 2) 39 16
def Task.gridN (x : Task) : Nat := bits (x.word 3) 63 48
def Task.gridM (x : Task) : Nat := bits (x.word 3) 47 32
def Task.gridB (x : Task) : Nat := bits (x.word 3) 31 16
/-- WAIT_LIMIT in ms: 0 selects 100 ms; an expert field (Table 2.2). -/
def Task.waitLimit (x : Task) : Nat :=
  let v := if x.unlocked then bits (x.word 3) 15 0 else 0
  if v = 0 then 100 else v
def Task.seed (x : Task) : Word := x.desc.getD 4 0
def Task.table (x : Task) : Nat := x.word 5
def Task.startSig (x : Task) : Nat := x.word 6
def Task.doneSig (x : Task) : Nat := x.word 7

/-- R34: the tile context of index idx. -/
def Task.ctx (x : Task) (ward req task idx : Nat) : TileCtx :=
  let q := idx / x.splitK
  { ward := ward, req := req, task := task, taskId := x.taskId, idx := idx, kp := idx % x.splitK,
    tn := q % x.gridN, tm := q / x.gridN % x.gridM, b := q / (x.gridN * x.gridM), splitK := x.splitK,
    seed := x.seed, trap := x.trap, unlocked := x.unlocked, waitLimit := x.waitLimit, stream := x.stream }

/-- The registers that a parameter block loads: t0 to t31 from its first 1,024 B, s1 to s63 from the next 504 B, then
idx, kp, tn, tm and b into s59 to s63 (R34, Table 2.6). -/
def loadRegs (k : Core) (t : TileCtx) (bs : List Byte) : Core :=
  let k := (List.range 32).foldl (fun k n => k.setT n (BitVec.ofNat 256 (ofBytes ((bs.drop (32 * n)).take 32)))) k
  let k := (List.range 63).foldl (fun k n => k.setS (n + 1) (BitVec.ofNat 64 (ofBytes ((bs.drop (1024 + 8 * n)).take 8)))) k
  let put (k : Core) (n v : Nat) : Core := k.setS n (BitVec.ofNat 64 v)
  put (put (put (put (put k 59 t.idx) 60 t.kp) 61 t.tn) 62 t.tm) 63 t.b

/-- R45, R89: core c begins the tile of a context: registers as Table 2.6 states, the sequencer at STREAM, the
exception record free for a task with another TASK_ID or of another ward. A parameter block that cannot be read faults
the task (Table 9.2). -/
def State.startTile (s : State) (c : Nat) (t : TileCtx) (table : Nat) (phase : Phase) (replays : Nat) : State :=
  let (s, bs, code) := s.vread t.ward table 1528
  let k := s.core c
  let id := some (t.ward, t.taskId)
  let s := if k.excTask = id then s else s.wr .coreExcRecord_VALID c 0
  let seat := (s.node * 2 ^ 52 + coreAddr c) / 2 ^ 21
  let t := { t with home := seat, seat := seat }
  let fresh : Core := { phase := phase, tile := some t, pc := t.stream, replays := replays, excTask := id, ops := k.ops,
                        engines := k.tags }
  let s := s.setCore c (loadRegs fresh t bs)
  if code ≠ 0 then s.taskFault c code else s

/-! ### Operations on their way -/

/-- R313, Table 9.12: where a signal word lies that a core increments: any node, not in a borrowed window; the code
where it breaks a rule. -/
def State.signalPlace (s : State) (ward a : Nat) : Nat × Loc :=
  let (code, l) := s.locate ward a true
  let bad := match l with
    | .phys _ => 0
    | .remote n _ => failIf (!s.reachable n) cUnreachable
    | .window _ _ _ => cProtection
  (firstCode [failIf (decide (a % 8 ≠ 0)) cMisaligned, code, if code = 0 then bad else 0], l)

/-- The number of a new move: above those of the core's operations on their way. -/
def Core.newMove (k : Core) : Nat := k.ops.foldl (fun a o => max a o.mv) 0 + 1

/-- The operation code that stands for a signal which waits for its move's data (R51). -/
def opPending : Nat := 0x40

/-- What every operation keeps of the instruction of tile t that core c has just issued (R310), as part of move mv. -/
def State.opFor (s : State) (c : Nat) (t : TileCtx) (mv : Nat := 0) : RemoteOp :=
  { mv := mv, task := (t.req, t.task), tile := t.idx, ord := (s.core c).issued }

/-- The task of an operation faults with a code, at the operation's tile and place (R250, R310). -/
def State.faultOp (s : State) (o : RemoteOp) (code : Nat) : State := s.faultTask o.task.1 o.task.2 code o.tile {} o.ord

/-- An increment that a core makes for the instruction that r tells of (R51): at its home here, or by a WRITE_SIGNAL to
its node. A word that cannot be incremented faults the issuer's task (Table 9.2). -/
def State.coreSignal (s : State) (c : Nat) (ward : Nat) (r : RemoteOp) (l : Loc) (inc : Nat) : State :=
  match l with
  | .phys a =>
    let (s, code) := s.increment a inc
    if code ≠ 0 then s.faultOp r code else s
  | .remote n a =>
    let (s, code) := s.coreRequest c (signalPacket ward n a inc) { r with mv := 0 }
    if code ≠ 0 then s.faultOp r code else s
  | .window _ _ _ => s.faultOp r cProtection

/-- R51: an increment after the data of move r.mv: at once where nothing of the move is on its way, else with its last
acknowledgement. -/
def State.signalAfter (s : State) (c ward : Nat) (r : RemoteOp) (l : Loc) (inc : Nat) : State :=
  let k := s.core c
  if k.ops.any fun o => decide (o.mv = r.mv) then
    s.setCore c { k with ops := k.ops ++ [{ r with op := opPending, sig := some (l, inc), src := ward }] }
  else s.coreSignal c ward r l inc

/-- The increments of core c whose data is all acknowledged are made. -/
def State.settle (s : State) (c : Nat) : State :=
  let k := s.core c
  let busy (mv : Nat) : Bool := k.ops.any fun o => decide (o.mv = mv) && decide (o.op ≠ opPending)
  let due := k.ops.filter fun o => decide (o.op = opPending) && !busy o.mv
  let s := s.setCore c { k with ops := k.ops.filter fun o => !(decide (o.op = opPending) && !busy o.mv) }
  due.foldl (fun s o =>
    match o.sig with
    | some (l, inc) => s.coreSignal c o.src { task := o.task, tile := o.tile, ord := o.ord } l inc
    | none => s) s

/-! ### The end -/

/-- Data written to a place: here, or by WRITE operations to its node (R145, R250). -/
def State.putAt (s : State) (c ward : Nat) (r : RemoteOp) (l : Loc) (data : List Byte) (poison : Bool) : State × Nat :=
  match l with
  | .phys a => (s.write a data poison, 0)
  | _ => s.farWrite c ward l data (List.replicate (ceilDiv data.length 64) poison) r

/-- R35, R145, R280: the outputs that a tile held are released together, in order: the data, then what was counted as
delivered, then the signals. -/
def State.releaseHeld (s : State) (c : Nat) (t : TileCtx) (held : List Held) : State :=
  let r := s.opFor c t (s.core c).newMove
  let s := held.foldl (fun s h =>
    match h with
    | .write l data poison =>
      let (s, code) := s.putAt c t.ward r l data poison
      if code ≠ 0 then s.faultOp r code else s
    | _ => s) s
  let s := held.foldl (fun s h =>
    match h with
    | .deliver g tag j e n => (s.deliver g tag j e n).gatherReady g tag
    | _ => s) s
  held.foldl (fun s h =>
    match h with
    | .signal l inc => s.signalAfter c t.ward r l inc
    | _ => s) s

end Sys2Proof.Machine
end

