-- ==== Sys2Proof/Machine/Engine.lean ====
section
/-! DEFINITION. The matrix engines (04_matrix_engines.md): MMA and CMMA, passes and their stationary registers, engine
faults and replay. -/
namespace Sys2Proof.Machine

/-! ### Products into accumulators -/

/-- One pass over the K range of an output: the factors along K, whether it is the hi.hi pass, and whether its
products are negated (R85, R86). -/
structure Pass where
  a : List Num := []
  b : List Num := []
  hihi : Bool := true
  neg : Bool := false
deriving DecidableEq, Repr

/-- The products of n positions from s0 on. -/
def Pass.group (p : Pass) (s0 n : Nat) : List Prod :=
  List.zipWith (fun x y => let q := Num.mulPiece p.hihi x y; if p.neg then q.negate else q)
    ((p.a.drop s0).take n) ((p.b.drop s0).take n)

/-- The integer that an integer operand stands for. -/
def Num.intVal (x : Num) : Int := if x.cls = .fin then (if x.neg then -((x.sig <<< x.ex.toNat : Nat) : Int) else (x.sig <<< x.ex.toNat : Nat)) else 0

/-- The exact integer sum of n positions from s0 on (R70). -/
def Pass.intSum (p : Pass) (s0 n : Nat) : Int :=
  let x := (List.zipWith (fun x y => x.intVal * y.intVal) ((p.a.drop s0).take n) ((p.b.drop s0).take n)).foldl (· + ·) 0
  if p.neg then -x else x

/-- The starts and lengths of an element's groups: blocks of 64 in ascending K, within each every pass in order,
within each pass sub-blocks of the form's depth (R73, R103). -/
def groupOrder (kLen depth : Nat) (ps : List Pass) : List (Pass × Nat × Nat) :=
  (List.range (ceilDiv kLen 64)).flatMap fun b =>
    let k0 := 64 * b
    let len := min 64 (kLen - k0)
    ps.flatMap fun p => (List.range (ceilDiv len depth)).map fun i => (p, k0 + depth * i, min depth (len - depth * i))

/-- One accumulator through the passes of an instruction: the accumulator and the flags, each with its K group and its
pass's place in the order of passes (R70 to R74, R89). A group that spans two blocks of K takes the block of its first
position (log entry 139). -/
def accElem (int sat : Bool) (kLen depth : Nat) (ps : List Pass) (a : Acc) : Acc × List (Nat × Nat × Nat) :=
  let r := ((groupOrder kLen depth ps).mapIdx fun i g => (i, g)).foldl (fun (x : Acc × List (Nat × Nat × Nat)) g =>
    let (i, p, s0, n) := g
    if int then (x.1.addInt (p.intSum s0 n) sat, x.2)
    else
      let (acc, fl) := x.1.addGroup (groupSum (p.group s0 n)) sat
      (acc, if fl = 0 then x.2 else x.2 ++ [(fl, (a.kpos + s0) / 64, i)])) (a, [])
  ({ r.1 with kpos := a.kpos + kLen }, r.2)

/-- The place of a cycle in an instruction's order (R98): pass i of an element, whose K block has n passes for each of
the product's parts, part by part, and within the pass row r of m. -/
def passCycle (n parts part m i r : Nat) : Nat := (n * (i / n * parts + part) + i % n) * m + r

/-- A whole region: M rows by N columns, each element through its passes into the accumulator that key names. A
flag's ROW and COL are those of the region (log entry 139). -/
def accRegion (k : Core) (m n : Nat) (key : Nat → Nat → Nat) (f : Nat → Nat → Acc → Acc × List (Nat × Nat × Nat))
    (cycle : Nat → Nat → Nat) : Core × List FlagEvent :=
  (List.range m).foldl (fun x r => (List.range n).foldl (fun (x : Core × List FlagEvent) c =>
    let (a, fs) := f r c (x.1.accAt (key r c))
    (x.1.setAcc (key r c) a, x.2 ++ fs.map fun p =>
      { flags := p.1, row := r, col := c, kgroup := p.2.1, time := cycle p.2.2 r })) x) (k, [])

/-- The piece numbers of the passes of a split form, in order (Table 3.6): 0 hi, 1 mid, 2 lo. -/
def splitPasses : Nat → List (Nat × Nat)
  | 0 => [(0, 0)]
  | 1 => [(0, 0), (0, 2), (2, 0)]
  | _ => [(0, 0), (0, 1), (1, 0), (0, 2), (1, 1), (2, 0)]

/-- A piece of an operand. -/
def Num.piece (split i : Nat) (x : Num) : Num :=
  let (hi, mid, lo) := x.pieces split
  if i = 0 then hi else if i = 1 then mid else lo

/-! ### Passes on the array (R98, R105, R106) -/

/-- The B loader's two banks hold the block of the next pass and the one ahead of it. -/
def Engine.fill (e : Engine) (blocks : List (List Cof)) : Engine := { e with staged := blocks.take 2 }

/-- Whether the scoreboard lets a stationary copy happen (R106): a block is staged, and no row of the tag of its pass,
which the pass before last had, is within residency. -/
def Engine.mayCopy (e : Engine) : Bool := !e.copied && !e.staged.isEmpty && !decide (1 - e.tag ∈ e.rows)

/-- The stationary copy of the next pass: the oldest staged block goes into the register of the inverted tag. One that the
scoreboard refuses is not made. -/
def Engine.copy (e : Engine) : Engine :=
  match e.staged with
  | [] => e
  | b :: bs => if e.mayCopy then { e with regs := e.regs.set (1 - e.tag) b, staged := bs, copied := true } else e

/-- The rows of the pass before last have left: a pass lasts longer than a row's residency (R106). -/
def Engine.settle (e : Engine) : Engine := { e with rows := e.rows.filter (· = e.tag) }

/-- A pass begins: its rows enter with its tag, the inverted one, and meet the register of that tag (R105). -/
def Engine.stream (e : Engine) : Engine := { e with tag := 1 - e.tag, rows := (1 - e.tag) :: e.rows, copied := false }

/-- The passes of an instruction in order, each with its stationary block, to the end of the last drain. While a pass
streams, the loader fills the next one's bank, one block ahead (R98). -/
def Engine.runPasses (e : Engine) : List (List Cof) → Engine
  | [] => { e with staged := [], rows := [], copied := false }
  | b :: bs => (((if e.copied then e else (e.settle.fill (b :: bs)).copy).stream).fill bs).runPasses bs

/-- The state with an engine of a core changed. -/
def State.modEngine (s : State) (c e : Nat) (f : Engine → Engine) : State :=
  let k := s.core c
  s.setCore c { k with engines := k.engines.modify e f }

/-- The stationary blocks of the passes over B: depth rows of K by N columns, in pass order (R98, R103). -/
def passBlocks (kLen n depth : Nat) (bs : List (Nat → List Num)) : List (List Cof) :=
  (List.range (ceilDiv kLen 64)).flatMap fun b =>
    let k0 := 64 * b
    let len := min 64 (kLen - k0)
    bs.flatMap fun col => (List.range (ceilDiv len depth)).map fun i =>
      (List.range (min depth (len - depth * i))).flatMap fun j =>
        (List.range n).map fun c => ((col c).getD (k0 + depth * i + j) {}).cof

/-! ### MMA and CMMA -/

/-- Table 12.6: the decode checks of MMA and CMMA. -/
def mmaOk (w : MmaWord) (cplx : Bool) : Bool :=
  !w.ext && decide (w.rsv = 0) && decide (w.afmt.toNat ≤ 4) && decide (w.bfmt.toNat ≤ 4) && decide (w.rd.toNat < 8)
    && decide (w.ra.toNat < (if cplx then 31 else 32)) && decide (w.rb.toNat < (if cplx then 31 else 32))
    && unused w.gather w.rc && unused w.gather w.glen && decide (w.form.toNat ≠ 3)
    && (if cplx then decide (w.split = 0) else decide (w.split.toNat ≠ 3))

/-- What an MMA works on, once its descriptors are read: A, B, M, N, K, the form and the gather list's address. -/
structure MmaJob where
  a : TDesc := {}
  b : TDesc := {}
  a2 : TDesc := {}
  b2 : TDesc := {}
  m : Nat := 0
  n : Nat := 0
  kLen : Nat := 0
  wide : Bool := false
  list : Nat := 0
deriving DecidableEq, Repr

/-- The job of an instruction: FORM in force, else the automatic rule of R102. -/
def mmaJob (k : Core) (t : TileCtx) (w : MmaWord) (cplx : Bool) : MmaJob :=
  let d (n : Nat) : TDesc := k.desc n
  let a := d w.ra.toNat
  let b := d w.rb.toNat
  let form := expertVal t w.form.toNat
  { a := a, b := b, a2 := if cplx then d (w.ra.toNat + 1) else a, b2 := if cplx then d (w.rb.toNat + 1) else b,
    m := if w.gather then w.glen.toNat + 1 else a.rows, n := b.cols, kLen := a.cols,
    wide := decide (form = 2) || (decide (form = 0) && decide (b.cols > 64)), list := k.adr w.rc.toNat }

/-- Rows of an accumulator tile in a form (Table 4.2). -/
def tileRows (wide : Bool) : Nat := if wide then 16 else 64

/-- Whether two descriptors agree in every field but BASE (R314). -/
def TDesc.likeBut (x y : TDesc) : Bool := decide ({ x with base := 0 } = { y with base := 0 })

/-- R46, R102, R107, R108, R314: the descriptor and address checks, before any pass. -/
def State.mmaCode (s : State) (c : Nat) (w : MmaWord) (cplx : Bool) (j : MmaJob) : Nat :=
  let tiles := ceilDiv j.m (tileRows j.wide)
  let mMax := (if j.wide then 128 else 512) / (if cplx then 2 else 1)
  firstCode [
    failIf (!(j.a.ok && j.b.ok && j.a2.ok && j.b2.ok)) cDescriptor,
    failIf (decide (j.a.fmtCode ≠ w.afmt.toNat) || decide (j.b.fmtCode ≠ w.bfmt.toNat)) cDescriptor,
    failIf (cplx && !(j.a.likeBut j.a2 && j.b.likeBut j.b2)) cDescriptor,
    failIf (decide (j.m > mMax) || decide (j.n > if j.wide then 256 else 64)) cDescriptor,
    failIf (decide (j.a.cols ≠ j.b.rows)) cDescriptor,
    failIf (decide (w.rd.toNat + tiles > if cplx then 4 else 8)) cDescriptor,
    failIf (w.gather && decide (j.list % 64 ≠ 0)) cMisaligned,
    failIf (!(j.a.own s c && j.b.own s c && j.a2.own s c && j.b2.own s c)) cNotLocal,
    failIf (w.gather && !s.own c j.list (4 * j.m)) cNotLocal]

/-- The A rows that stream: an index each, none for a row of +0 (R107). -/
def State.gatherRows (s : State) (w : MmaWord) (j : MmaJob) : List (Option Nat) :=
  (List.range j.m).map fun i =>
    if w.gather then
      let x := s.peekN (j.list % 2 ^ 52 + 4 * i) 4
      if x = 0xFFFFFFFF then none else some x
    else some i

/-- Whether the scoreboard holds a block that the instruction reads (R48). -/
def State.mmaHeld (s : State) (c : Nat) (w : MmaWord) (j : MmaJob) : Bool :=
  [j.a, j.b, j.a2, j.b2].any (fun d => s.blocked c d.base d.span) || (w.gather && s.blocked c j.list (4 * j.m))

/-- A row or column of a tensor as operands along K; a missing row is +0. -/
def State.rowOf (s : State) (d : TDesc) (kLen : Nat) (r : Option Nat) : List Num :=
  match r with
  | some r => (List.range kLen).map fun k => s.elemNum d r k
  | none => List.replicate kLen {}
def State.colOf (s : State) (d : TDesc) (kLen c : Nat) : List Num := (List.range kLen).map fun k => s.elemNum d k c

/-- The stationary blocks of an instruction's passes (R86, R98, R103). -/
def State.mmaBlocks (s : State) (w : MmaWord) (cplx : Bool) (j : MmaJob) : List (List Cof) :=
  let whole (d : TDesc) : Nat → List Num := fun n => (s.colOf d j.kLen n).map Num.toCofNum
  passBlocks j.kLen j.n (if j.wide then 16 else 64)
    (if cplx then [whole j.b, whole j.b2, whole j.b2, whole j.b]
     else (splitPasses w.split.toNat).map fun p => fun n => (s.colOf j.b j.kLen n).map (Num.piece w.split.toNat p.2))

/-- The passes of an MMA's element (R85). -/
def mmaPasses (split : Nat) (a b : List Num) : List Pass :=
  (splitPasses split).map fun p =>
    { a := a.map (Num.piece split p.1), b := b.map (Num.piece split p.2), hihi := decide (p = (0, 0)) }

/-- MMA and CMMA (R99, R100, R109): checks, gather, then every element through its passes. -/
def mmaRun (c : Nat) (w : MmaWord) (cplx : Bool) : Run := fun s t =>
  let s := s.noteIgnored t [w.form.toNat]
  let k := s.core c
  let j := mmaJob k t w cplx
  let code := s.mmaCode c w cplx j
  if code ≠ 0 then (s, code) else
  let (s, dl) := if w.gather then s.readRanges [(j.list, 4 * j.m)] else (s, 0)
  let rows := s.gatherRows w j
  if dl ≠ 0 then (s, dl)
  else if rows.any fun r => match r with | some x => decide (x ≥ j.a.rows) | none => false then (s, cIndexRange) else
  let used (d : TDesc) : List (Nat × Nat) :=
    if w.gather then rows.flatMap fun r => match r with | some x => d.ranges x 1 0 j.kLen | none => []
    else d.ranges 0 j.m 0 j.kLen
  let (s, d) := s.readRanges (used j.a ++ used j.a2 ++ j.b.ranges 0 j.kLen 0 j.n ++ j.b2.ranges 0 j.kLen 0 j.n)
  if d ≠ 0 then (s, d) else
  let e := w.eng.toNat
  let depth := if j.wide then 16 else 64
  let tiles := ceilDiv j.m (tileRows j.wide)
  let int := j.a.fmt.isInt && j.b.fmt.isInt
  let k := s.core c
  let k := if w.acc then k else k.clearTiles e w.rd.toNat tiles
  let k := if w.acc || !cplx then k else k.clearTiles e (w.rd.toNat + 4) tiles
  let key (part r col : Nat) : Nat := accKey e j.wide (w.rd.toNat + 4 * part + r / tileRows j.wide) (r % tileRows j.wide) col
  let arow (d : TDesc) (r : Nat) : List Num := s.rowOf d j.kLen (rows.getD r none)
  let split := w.split.toNat
  let one (x : List Num) : List Num := x.map Num.toCofNum
  let cycle (passes parts part : Nat) : Nat → Nat → Nat := passCycle (passes * (64 / depth)) parts part j.m
  let (k, ev) :=
    if cplx then
      let (k, e1) := accRegion k j.m j.n (key 0) (fun r col => accElem int w.sat j.kLen depth
        [{ a := one (arow j.a r), b := one (s.colOf j.b j.kLen col) },
         { a := one (arow j.a2 r), b := one (s.colOf j.b2 j.kLen col), neg := true }]) (cycle 2 2 0)
      let (k, e2) := accRegion k j.m j.n (key 1) (fun r col => accElem int w.sat j.kLen depth
        [{ a := one (arow j.a r), b := one (s.colOf j.b2 j.kLen col) },
         { a := one (arow j.a2 r), b := one (s.colOf j.b j.kLen col) }]) (cycle 2 2 1)
      (k, e1 ++ e2)
    else accRegion k j.m j.n (key 0) (fun r col => accElem int w.sat j.kLen depth
      (mmaPasses split (arow j.a r) (s.colOf j.b j.kLen col))) (cycle (splitPasses split).length 1 0)
  let blocks := s.mmaBlocks w cplx j
  let s := ((s.setCore c k).modEngine c e fun x => x.runPasses blocks).raise c t ev
  (s.engineStatus c j.wide cplx (rows.any (·.isNone)) (if cplx then 0 else split), 0)

/-- Whether a matrix instruction has to stay in its queue (R48, R321). -/
def State.mmaWaits (s : State) (c : Nat) (w : MmaWord) (cplx : Bool) : Bool :=
  s.heldFor c fun t => (s.core c).accHeld || s.mmaHeld c w (mmaJob (s.core c) t w cplx)

/-- While an instruction waits in its queue, the loader fills its banks with the first blocks of B, where B itself is
not held; they are kept until the instruction leaves its queue (Table 4.4). -/
def State.mmaAhead (s : State) (c : Nat) (w : MmaWord) (cplx : Bool) : State :=
  match s.issuing c with
  | none => s
  | some t =>
    let j := mmaJob (s.core c) t w cplx
    if s.mmaCode c w cplx j ≠ 0 ∨ [j.b, j.b2].any (fun d => s.blocked c d.base d.span) then s
    else s.modEngine c w.eng.toNat fun e => if e.copied || !e.staged.isEmpty then e else e.fill (s.mmaBlocks w cplx j)

/-- A matrix instruction; one whose operands a block holds stays in its queue (R48). -/
def State.mma (s : State) (c : Nat) (w : MmaWord) (cplx : Bool) : Out :=
  if mmaOk w cplx && s.mmaWaits c w cplx then .next (s.mmaAhead c w cplx) else s.issue c 1 (mmaOk w cplx) (mmaRun c w cplx)

/-- MMA (R99, Table 12.6). -/
def execMma (c : Nat) (w : MmaWord) (s : State) : Out := s.mma c w false

/-- CMMA (R86, R109). -/
def execCmma (c : Nat) (w : MmaWord) (s : State) : Out := s.mma c w true

/-! ### The stationary copy and engine faults -/

/-- Whether the instruction at core c's program counter is one of engine e that still waits on a hazard (Table 4.4). -/
def State.engineWaits (s : State) (c e : Nat) : Bool :=
  match s.issuing c with
  | none => false
  | some t =>
    match decodeWords c (BitVec.ofNat 64 (s.codeWord t (s.core c).pc)) 0 with
    | some (.mma _ w) => decide (w.eng.toNat = e) && s.mmaWaits c w false
    | some (.cmma _ w) => decide (w.eng.toNat = e) && s.mmaWaits c w true
    | _ => false

/-- STATIONARY_COPY (R106, Table 4.4): a staged block is copied, unless a row of its tag is within residency, when the
copy is refused and due again, or its instruction still waits in its queue. -/
def execStationaryCopy (c e : Nat) (s : State) : Out :=
  if ((s.core c).engines.getD e {}).mayCopy && !s.engineWaits c e then .next (s.modEngine c e Engine.copy) else .next s

/-- R114: the tile of core c starts again on the same core. -/
def State.replayTile (s : State) (c : Nat) (t : TileCtx) (phase : Phase) : State :=
  let s := s.bump .engStat_REPLAYS c
  let s := s.discardTile c
  match s.task t.req t.task with
  | some x => s.startTile c { t with replayed := c :: t.replayed } x.table phase 1
  | none => s

/-- R114, R115: an engine fault of a cause (LAST_CAUSE of Table 4.7). The first in a tile on a core replays the tile
there; the second excludes the core and returns the tile, or faults the task where the tile has excluded a core
already. -/
def State.engineFault (s : State) (c e cause : Nat) : State :=
  let k := s.core c
  match k.tile with
  | none => s
  | some t =>
    let s := (s.wr .engStat_LAST_CAUSE c cause).wr .engStat_LAST_ENG c e
    let detail := cause + e * 16 + t.idx * 2 ^ 24
    if k.replays = 0 then (s.event 0x05 c 1 t.ward 0x10 detail).replayTile c t (if k.phase = .stopping then .stopping else .running)
    else
      let before := ((s.task t.req t.task).map (·.excludedCores)).getD []
      if before.any fun p => decide (p.1 = t.idx) then s.taskFault c cEngineFault
      else
        let s := s.event 0x05 c 3 t.ward 0x11 detail
        let s := s.modTask t.req t.task fun x => { x with excludedCores := (t.idx, c) :: x.excludedCores }
        s.excludeCore c

/-- Whether core c has a tile whose passes may run: running, waiting or draining for pre-emption. -/
def Core.active (k : Core) : Bool :=
  k.tile.isSome && (decide (k.phase = .running) || decide (k.phase = .waiting) || decide (k.phase = .stopping))

/-- PASS_TIME_LIMIT (R114): LAST_CAUSE 4. -/
def execPassTimeLimit (c e : Nat) (s : State) : Out := Out.when (s.core c).active s (s.engineFault c e 4)

/-- ENGINE_FAULT (R114, R115): residue 1, stationary parity 2, accumulator parity 3. -/
def execEngineFault (c e : Nat) (cause : EngineCause) (s : State) : Out :=
  let n := match cause with | .residue => 1 | .stationaryParity => 2 | .accumulatorParity => 3
  Out.when (s.core c).active s (s.engineFault c e n)

end Sys2Proof.Machine
end

