-- ==== Sys2Proof/Machine/NumFun.lean ====
section
/-! DEFINITION. Division, roots, powers and logarithms as exact mathematical values in floor form (R130, R316), and
the rounding of a function of a chain to 24 significant bits. The transcendental functions are bounded by
fixed-point intervals whose precision grows until the floor is decided; where it never is, the value is a free one
(log entry 6). -/
namespace Sys2Proof.Machine

/-- Integer square root by bits, highest first. -/
def isqrtGo : Nat → Nat → Nat → Nat
  | 0, _, r => r
  | b + 1, x, r =>
    let c := r + 2 ^ b
    isqrtGo b x (if c * c ≤ x then c else r)

/-- floor(sqrt x). -/
def isqrt (x : Nat) : Nat := isqrtGo (x.log2 / 2 + 1) x 0

/-- The quotient a x 2^ea / (b x 2^eb) in floor form, with at least 72 bits and down to 2^-20 at least; b above 0. -/
def magDiv (a : Nat) (ea : Int) (b : Nat) (eb : Int) : Mag :=
  let s := max (b.log2 + 73 - a.log2) (ea - eb + 20).toNat
  { n := (a <<< s) / b, k := ea - eb - s, sticky := decide ((a <<< s) % b ≠ 0) }

/-- The square root of a x 2^e in floor form. -/
def magSqrt (a : Nat) (e : Int) : Mag :=
  let s := 160 - a.log2
  let s := if (e - s) % 2 = 0 then s else s + 1
  let v := a <<< s
  let r := isqrt v
  { n := r, k := (e - s) / 2, sticky := decide (r * r ≠ v) }

/-- The reciprocal square root of a x 2^e in floor form; a above 0. -/
def magRsqrt (a : Nat) (e : Int) : Mag :=
  let s := 160 + a.log2
  let s := if (e + s) % 2 = 0 then s else s + 1
  let r := isqrt (2 ^ s / a)
  { n := r, k := (-(e + s)) / 2, sticky := decide (r * r * a ≠ 2 ^ s) }

/-- The sum of z^(2i+1)/(2i+1) from i on, in fixed point of p bits: k terms. -/
def artanhGo (p z2 : Nat) : Nat → Nat → Nat → Nat
  | 0, _, _ => 0
  | k + 1, i, t => t / (2 * i + 1) + artanhGo p z2 k (i + 1) ((t * z2) >>> p)

/-- artanh(num / den) in fixed point of p bits, from below; num / den at most 1/3. -/
def artanhFix (p num den : Nat) : Nat :=
  let z := (num <<< p) / den
  artanhGo p ((z * z) >>> p) (p / 3 + 4) 0 z

/-- ln 2 in fixed point of p bits, from below. -/
def ln2Fix (p : Nat) : Nat := 2 * artanhFix p 1 3

/-- The sum of y^i / i! from i on, in fixed point of p bits: k terms. -/
def expGo (p y : Nat) : Nat → Nat → Nat → Nat
  | 0, _, _ => 0
  | k + 1, i, t => t + expGo p y k (i + 1) (((t * y) >>> p) / (i + 1))

/-- Number of ulps by which the fixed-point sums of p bits may lie below the value. -/
def fixSlack (p : Nat) : Nat := 8 * p + 64

/-- e^y for y in [0, 1) in fixed point of p bits, from below. -/
def expFix (p y : Nat) : Nat := expGo p y (p / 3 + 12) 0 (2 ^ p)

/-- The 64-bit floor form of an irrational value that lies strictly between lo and hi in fixed point of p bits,
where the two ends agree on it. -/
def decide64 (p lo hi : Nat) : Option Mag :=
  if lo = 0 then none else
  let s := lo.log2 - 63
  if lo.log2 < 63 then none
  else if lo >>> s = (hi - 1) >>> s then some ⟨lo >>> s, (s : Int) - p, true⟩ else none

/-- The first decided floor form over rising precisions, else a free significand at exponent e. -/
def decideUp (f : Nat → Option Mag) (e : Int) (seed : Nat) : Mag :=
  match f 192 with
  | some m => m
  | none =>
    match f 512 with
    | some m => m
    | none =>
      match f 2600 with
      | some m => m
      | none => ⟨2 ^ 63 + Config.undecided seed % 2 ^ 63, e - 63, true⟩

/-- 2^f for a fraction f given as its floor in fixed point of p bits. -/
def exp2Frac (p f : Nat) : Option Mag :=
  let y := (f * ln2Fix p) >>> p
  let lo := expFix p y
  decide64 p lo (min (lo + fixSlack p) (2 ^ (p + 1)))

/-- 2^x for an exact x (R130). -/
def exp2Mag (x : Dy) : Mag :=
  if x.m = 0 then ⟨1, 0, false⟩
  else if x.e ≥ 0 ∨ x.log2 ≥ 13 then
    if x.log2 ≥ 13 then ⟨1, if x.m < 0 then -8192 else 8192, true⟩ else ⟨1, x.m * 2 ^ x.e.toNat, false⟩
  else
    let d := (-x.e).toNat
    let i := x.m / 2 ^ d
    let fr := (x.m % 2 ^ d).toNat
    if fr = 0 then ⟨1, i, false⟩
    else
      let m := decideUp (fun p => exp2Frac p (if d ≤ p then fr <<< (p - d) else fr >>> (d - p))) 0 fr
      { m with k := m.k + i }

/-- log2 of m / 2^l, for 2^l < m < 2^(l+1), in fixed point of p bits: lower and upper ends. -/
def log2Frac (p m l : Nat) : Nat × Nat :=
  let a := 2 * artanhFix p (m - 2 ^ l) (m + 2 ^ l)
  let ln := ln2Fix p
  ((a <<< p) / (ln + fixSlack p), ((a + fixSlack p) <<< p) / ln + 1)

/-- log2 of a x 2^e for a above 0: sign and magnitude (R130). -/
def log2Mag (a : Nat) (e : Int) : Bool × Mag :=
  let l := a.log2
  let j : Int := (l : Int) + e
  if a = 2 ^ l then (decide (j < 0), ⟨j.natAbs, 0, false⟩)
  else if j ≥ 0 then
    (false, decideUp (fun p => let r := log2Frac p a l; decide64 p (j.toNat * 2 ^ p + r.1) (j.toNat * 2 ^ p + r.2))
      0 a)
  else
    (true, decideUp (fun p =>
      let r := log2Frac p a l
      if r.2 < (-j).toNat * 2 ^ p then decide64 p ((-j).toNat * 2 ^ p - r.2) ((-j).toNat * 2 ^ p - r.1) else none)
      0 a)

/-- R130: a function's magnitude rounded by RNE to 24 significant bits within the wide range. -/
def round24 (neg : Bool) (m : Mag) : Wide :=
  if m.n = 0 then { neg := neg } else
  let q := m.log2 - 23
  let n := (roundAt {} m q).1
  let w := Wide.ofDy ⟨if neg then -(n : Int) else n, q⟩
  if w.ex ≥ 2048 then { cls := .inf, neg := neg, ovr := true }
  else if w.ex < -2048 then { cls := .zero, neg := neg, unr := true }
  else w

end Sys2Proof.Machine
end

