-- ==== Sys2Proof/Machine/Quant.lean ====
section
/-! DEFINITION. Values before their one final rounding, and quantisation with a new scale (R131 to R133, R175,
R207). -/
namespace Sys2Proof.Machine

/-- The value of an element that is rounded: w0, or the exact quotient (R132). -/
structure FinalVal where
  w : Wide := {}
  num : Dy := {}
  den : Dy := ⟨1, 0⟩
deriving DecidableEq, Repr

/-- The magnitude of a finite final value over a positive divisor. -/
def FinalVal.over (x : FinalVal) (d : Dy) : Mag :=
  if x.den = ⟨1, 0⟩ ∧ d = ⟨1, 0⟩ then ⟨x.num.m.natAbs, x.num.e, false⟩
  else if x.num.m = 0 then {} else
  let y := x.den.mul d
  magDiv x.num.m.natAbs x.num.e y.m.natAbs y.e

/-- The sign of a final value. -/
def FinalVal.neg (x : FinalVal) : Bool :=
  if x.w.cls = .fin then decide (x.num.m < 0) ^^ decide (x.den.m < 0) else x.w.neg

/-- The final rounding of one value (R131): an exact quotient directly (R132), anything else as a wide value. -/
def FinalVal.round (x : FinalVal) (f : Fmt) (r : Rounding) (sat : Bool) : Nat × Nat :=
  if x.w.cls = .fin ∧ x.den ≠ ⟨1, 0⟩ then
    let m := x.over ⟨1, 0⟩
    let (c, fl) := if f.isInt then narrowInt f sat (roundInt r x.neg m) else roundFloat f r x.neg m
    (c, fl ||| (if x.w.ovr then flOverflow else 0) ||| (if x.w.unr then flUnderflow else 0))
  else roundWide f r sat x.w

/-- |a| below |b| for finite final values, exactly. -/
def FinalVal.absLt (a b : FinalVal) : Bool :=
  let abs (d : Dy) : Dy := ⟨(d.m.natAbs : Int), d.e⟩
  ((abs a.num).mul (abs b.den)).lt ((abs b.num).mul (abs a.den))

/-- A block's BF16 scale, rounded up, its flags, and whether codes are computed (R133, Table 5.6). -/
def blockScale (xs : List FinalVal) (q : Nat) : Nat × Nat × Bool :=
  if xs.any fun x => decide (x.w.cls = .nan) then (0x7FC0, flInvalid, false)
  else if xs.any fun x => decide (x.w.cls = .inf) then (0x7F80, flOverflow, false)
  else
    let amax := xs.foldl (fun a x => if a.absLt x then x else a) {}
    if amax.num.m = 0 then (0, 0, false) else
    let m := amax.over ⟨(q : Int), 0⟩
    let e := max m.log2 (-126)
    let (n, ix) := m.floorAt (e - 7)
    let code := n + (if ix then 1 else 0) + (e + 126).toNat * 2 ^ 7
    if code ≥ 0x7F80 then (0x7F80, flOverflow, false) else (code, 0, true)

/-- The codes of a block under its scale (R133): RNE, zero where Table 5.6 computes none. -/
def blockCodes (f : Fmt) (xs : List FinalVal) : Nat × List Nat × Nat :=
  let (sc, fl, ok) := blockScale xs (if f = .int8 then 127 else 7)
  (sc, xs.map (fun x => if ok then unsignedOf f.bits (roundInt {} x.neg (x.over (Num.decode .bf16 sc).dy)) else 0), fl)

/-- An operand as a value to quantise. -/
def Num.final (x : Num) : FinalVal := let w := x.toWide; { w := w, num := w.dy }

/-- An exact product as an operand. -/
def Prod.num (p : Prod) : Num := { cls := p.cls, neg := p.neg, sig := p.sig, ex := p.ex }

end Sys2Proof.Machine
end

