-- ==== Sys2Proof/Machine/Chain.lean ====
section
/-! DEFINITION. Chain programs on wide values (05_fused_chains.md): chain words and slots, operands, operations,
reductions, and the run of a program over a region (R119 to R135). -/
namespace Sys2Proof.Machine

/-! ### Chain words (R318) -/

/-- Table 12.10: a chain word. -/
structure ChainInstr where
  op : Nat := 0
  mod : Nat := 0
  rd : Nat := 0
  a : Nat := 0
  b : Nat := 0
  c : Nat := 0
deriving DecidableEq, Repr

/-- The fields of a chain word. -/
def chainDecode (x : Nat) : ChainInstr :=
  { op := bits x 63 56, mod := bits x 51 46, rd := bits x 45 40, a := bits x 39 32, b := bits x 31 24, c := bits x 23 16 }

def wAdd : Nat := 0xC0
def wSub : Nat := 0xC1
def wMul : Nat := 0xC2
def wFma : Nat := 0xC3
def wMin : Nat := 0xC4
def wMaxnum : Nat := 0xC7
def wAbs : Nat := 0xC8
def wNeg : Nat := 0xC9
def wSel : Nat := 0xCA
def wExp2 : Nat := 0xCB
def wLog2 : Nat := 0xCC
def wRcp : Nat := 0xCD
def wSqrt : Nat := 0xCE
def wRsqrt : Nat := 0xCF
def wDiv : Nat := 0xD0
def wRedRow : Nat := 0xD1
def wRedCol : Nat := 0xD2
def wTap : Nat := 0xD3
def wHold : Nat := 0xD4

/-- Number of operands of an operation (Table 5.4). -/
def chainArity (op : Nat) : Nat :=
  if op = wFma ∨ op = wSel then 3
  else if op ≤ wMaxnum ∨ op = wDiv then 2
  else if op = wHold then 0 else 1

/-- Table 12.12: the selectors. -/
def selOk (x : Nat) : Bool :=
  decide (x < 6) || (decide (8 ≤ x) && decide (x ≤ 0xD)) || (decide (0x40 ≤ x) && decide (x ≤ 0xDF))

/-- Whether a word is a chain instruction (R122, R318). -/
def chainWordOk (x : Nat) : Bool :=
  let i := chainDecode x
  let n := chainArity i.op
  decide (wAdd ≤ i.op) && decide (i.op ≤ wHold) && decide (bits x 55 52 = 4) && decide (bits x 15 0 = 0)
    && (if i.op = wSel then decide (i.mod ≤ 4) else if i.op = wRedRow then decide (i.mod ≤ 3)
        else if i.op = wRedCol then decide (i.mod ≤ 3) && decide (i.mod ≠ 1) else decide (i.mod = 0))
    && (if i.op = wTap then decide (i.rd < 32) else if i.op = wHold then decide (i.rd = 0) else decide (i.rd < 4))
    && (if n ≥ 1 then selOk i.a else decide (i.a = 0)) && (if n ≥ 2 then selOk i.b else decide (i.b = 0))
    && (if n ≥ 3 then selOk i.c else decide (i.c = 0))

/-- The operand selectors that an instruction uses. -/
def ChainInstr.sels (i : ChainInstr) : List Nat := [i.a, i.b, i.c].take (chainArity i.op)

/-- The instructions before W.HOLD, those after it, and whether there is one (R125). -/
def chainStages (p : List Nat) : List ChainInstr × List ChainInstr × Bool :=
  let is := p.map chainDecode
  let pre := is.takeWhile fun i => i.op ≠ wHold
  (pre, is.drop (pre.length + 1), decide (pre.length < is.length))

/-- The kind of a row (W.RED.ROW) or column statistic: the op of its first W.RED. -/
def statKind (is : List ChainInstr) (op k : Nat) : Option Nat :=
  (is.find? fun i => decide (i.op = op) && decide (i.rd = k)).map (·.mod)

/-- R122: whether CHAIN.LD accepts a program. -/
def chainOk (p : List Nat) : Bool :=
  let (pre, post, _) := chainStages p
  let all := pre ++ post
  p.all chainWordOk && !(post.any fun i => i.op = wHold)
    && !(pre.any fun i => i.sels.any fun x => decide (8 ≤ x) && decide (x ≤ 0xB))
    && all.all fun i => (i.op ≠ wRedRow && i.op ≠ wRedCol) || decide (statKind all i.op i.rd = some i.mod)

/-- CHAIN.LD (R122, R319): n words of own memory into slot k, after their checks. -/
def execChainLd (c : Nat) (w : ChainLdWord) (s : State) : Out :=
  let a := (s.core c).adr w.ra.toNat
  let n := w.n.toNat
  s.issueUnless c 1 (s.blocked c a (8 * n)) (decide (w.rsv = 0) && !w.ext && decide (w.rd.toNat < 4)) fun s _ =>
    let code := firstCode [failIf (decide (n = 0) || decide (n > 64)) cIllegal, failIf (decide (a % 64 ≠ 0)) cMisaligned,
      failIf (!s.own c a (8 * n)) cNotLocal]
    if code ≠ 0 then (s, code) else
    let (s, bs, d) := s.read (a % 2 ^ 52) (8 * n)
    let p := (List.range n).map (wordAt bs)
    if d ≠ 0 then (s, d)
    else if !chainOk p then (s, cIllegal)
    else
      let k := s.core c
      (s.setCore c { k with slots := k.slots.set w.rd.toNat p }, 0)

/-! ### Operations (R128 to R130) -/

/-- A result outside the range of a wide value (R128, R130), tested after its truncation (log entry 141). -/
def Wide.clamp (w : Wide) : Wide :=
  if w.cls ≠ .fin then w
  else if w.ex ≥ 2048 then { cls := .inf, neg := w.isNeg, ovr := true }
  else if w.ex < -2048 then { cls := .zero, neg := w.isNeg, unr := true }
  else w

/-- The OR of the operands' range marks joined to a result (R128, R130). -/
def Wide.inherit (w : Wide) (ops : List Wide) : Wide :=
  { w with ovr := w.ovr || ops.any (·.ovr), unr := w.unr || ops.any (·.unr) }

/-- An exact sum as a chain result: an exact zero has the sign sigma (R129). -/
def GroupSum.chain (g : GroupSum) (sigma : Bool) : Wide :=
  if g.nan then { cls := .nan }
  else if g.pinf then { cls := .inf }
  else if g.ninf then { cls := .inf, neg := true }
  else if g.sum.m = 0 then { neg := sigma }
  else (Wide.ofDy g.sum).clamp

/-- A zero as a function of Table 5.5 sees it: an underflowed result keeps its own sign, any other has sigma (R129). -/
def Wide.funZero (w : Wide) (sigma : Bool) : Wide :=
  if w.cls = .zero ∧ w.unr = false then { w with neg := sigma } else w

/-- A function of Table 5.5: result and flags. -/
def chainFun (op : Nat) (a : Wide) (sigma : Bool) : Wide × Nat :=
  let nan : Wide := { cls := .nan }
  let inf (n : Bool) : Wide := { cls := .inf, neg := n }
  let m := a.mag
  match a.cls with
  | .nan => (nan, 0)
  | .zero =>
    if op = wExp2 then (Wide.ofDy ⟨1, 0⟩, 0)
    else if op = wLog2 then (inf true, flDivzero)
    else if op = wSqrt then ({ neg := a.neg }, 0)
    else (inf a.neg, flDivzero)
  | .inf =>
    if op = wRcp then ({ neg := a.neg }, 0)
    else if op = wExp2 then (if a.neg then { neg := sigma } else inf false, 0)
    else if a.neg then (nan, flInvalid)
    else if op = wRsqrt then ({ neg := sigma }, 0) else (inf false, 0)
  | .fin =>
    let neg := a.isNeg
    if op = wExp2 then (round24 false (exp2Mag a.dy), 0)
    else if op = wRcp then (round24 neg (magDiv 1 0 m.n m.k), 0)
    else if neg then (nan, flInvalid)
    else if op = wLog2 then (let (n, x) := log2Mag m.n m.k; if x.n = 0 ∧ !x.sticky then { neg := sigma } else round24 n x, 0)
    else if op = wSqrt then (round24 false (magSqrt m.n m.k), 0)
    else (round24 false (magRsqrt m.n m.k), 0)

/-- W.DIV (Table 5.5, R129, R132): result, flags, and the exact quotient where it is finite and nonzero. -/
def chainDiv (a b : Wide) (sigma : Bool) : Wide × Nat × Option (Dy × Dy) :=
  let neg := a.isNeg ^^ b.isNeg
  if a.cls = .nan ∨ b.cls = .nan then ({ cls := .nan }, 0, none)
  else if (a.cls = .zero ∧ b.cls = .zero) ∨ (a.cls = .inf ∧ b.cls = .inf) then ({ cls := .nan }, flInvalid, none)
  else if a.cls = .inf then ({ cls := .inf, neg := neg }, 0, none)
  else if b.cls = .zero then ({ cls := .inf, neg := neg }, flDivzero, none)
  else if a.cls = .zero ∨ b.cls = .inf then ({ neg := sigma }, 0, none)
  else (round24 neg (magDiv a.mag.n a.mag.k b.mag.n b.mag.k), 0, some (a.dy, b.dy))

/-- A minimum or maximum (R83) on chain values. -/
def chainMinMax (op : Nat) (a b : Wide) (sigma : Bool) : Wide :=
  let x := (Num.minMax op a.toNum b.toNum).1.toWide
  if x.cls = .zero then { x with neg := sigma } else x

/-! ### Elements -/

/-- One element within a chain (R121, R129, R132): its working registers, its zero sign (true for -0), and the exact
quotient where the latest instruction was a W.DIV into w0. -/
structure Elem where
  w : List Wide := [{}, {}, {}, {}]
  sigma : Bool := false
  quot : Option FinalVal := none
deriving DecidableEq, Repr

/-- A zero sign once values have entered the element (R129). -/
def sigmaAfter (sigma : Bool) (ws : List Wide) : Bool := sigma && ws.all fun w => decide (w.cls = .zero)

/-- Where an operand of a chain comes from (Table 5.3), for the stage that runs: the job, the row statistics,
whether ACC reads the stage-1 value, and the cycle in which the stage begins. -/
structure ChainEnv where
  job : ChainJob := {}
  stats : List (Nat × Wide) := []
  stored : Option Wide := none
  free : Nat := 0
  t0 : Nat := 0
deriving DecidableEq, Repr

/-- Key of a tensor operand: selector, row and absolute column. -/
def operandKey (sel r col : Nat) : Nat := sel * 2 ^ 24 + r * 2 ^ 15 + col

/-- The value of a statistic that no W.RED names: the spec states none (log entry 2). -/
def freeWide (n : Nat) : Wide := Wide.decode ((Config.freeWord n).toNat + 2 ^ 64 * (Config.freeWord (n + 1)).toNat)

/-- An operand of element (r, col), col the absolute column; c its column within the region's accumulators; with the
flags of its decoding (R127). -/
def ChainEnv.operand (v : ChainEnv) (e : Elem) (r c col sel : Nat) : Wide × Nat :=
  let j := v.job
  if sel < 4 then (e.w.getD sel {}, 0)
  else if sel = 4 then (v.stored.getD (j.acc.getD (r * j.cols + c) {}).value, 0)
  else if sel = 5 then ((j.acc2.getD (r * j.cols + c) {}).value, 0)
  else if sel < 0xC then
    match v.stats.find? fun p => p.1 = 4 * r + (sel - 8) with
    | some p => (p.2, 0)
    | none => (freeWide (v.free + 2 * (4 * r + (sel - 8))), 0)
  else if sel = 0xC then (j.rsv.getD r {}, 0)
  else if sel = 0xD then (j.rsa.getD r {}, 0)
  else if sel < 0x80 then ((Num.decode .fp32 ((Smap.get 0 j.scalars (sel - 0x40)).toNat % 2 ^ 32)).toWide, 0)
  else
    let key := if sel < 0xA0 then operandKey sel r col else if sel < 0xC0 then operandKey sel 0 col else operandKey sel r 0
    let x := Smap.get {} j.tensors key
    (x.toWide, if x.cls = .snan then flInvalid else 0)

/-- What one instruction of a chain does to an element besides its registers: a statistic's term or a value to tap. -/
inductive ChainEffect where
  | none
  | red (i : ChainInstr) (x : Wide)
  | tap (tn : Nat) (x : Wide)
deriving DecidableEq, Repr

/-- One chain instruction on one element: the element, its flags and its effect (R127 to R132). -/
def ChainEnv.step (v : ChainEnv) (r c col : Nat) (e : Elem) (i : ChainInstr) : Elem × Nat × ChainEffect :=
  let xs := i.sels.map (v.operand e r c col)
  let ops := xs.map (·.1)
  let fl := xs.foldl (fun a x => a ||| x.2) 0
  let sg := sigmaAfter e.sigma ops
  let a := ops.getD 0 {}
  let b := ops.getD 1 {}
  let cc := ops.getD 2 {}
  let put (x : Wide) (q : Option (Dy × Dy)) : Elem :=
    let x := x.inherit ops
    let exact (p : Dy × Dy) : FinalVal := { w := { cls := .fin : Wide }.inherit ops, num := p.1, den := p.2 }
    { w := e.w.set i.rd x, sigma := sigmaAfter sg [x], quot := if i.rd = 0 then q.map exact else none }
  let sum (ps : List Prod) : Elem × Nat × ChainEffect :=
    let g := exactSum ps
    (put (g.chain sg) none, fl ||| g.flags, .none)
  let pass : Elem := { e with sigma := sg, quot := none }
  if i.op = wAdd then sum [a.toNum.term, b.toNum.term]
  else if i.op = wSub then sum [a.toNum.term, b.toNum.negate.term]
  else if i.op = wMul then sum [a.toNum.mul b.toNum]
  else if i.op = wFma then sum [a.toNum.mul b.toNum, cc.toNum.term]
  else if i.op ≤ wMaxnum then (put (chainMinMax (i.op - wMin) a b sg) none, fl, .none)
  else if i.op = wAbs ∨ i.op = wNeg then
    let x : Wide :=
      match a.cls with
      | .zero => { neg := sg }
      | .nan => { cls := .nan }
      | .inf => { cls := .inf, neg := if i.op = wAbs then false else !a.neg }
      | .fin => Wide.ofDy ⟨if i.op = wAbs then (a.dy.m.natAbs : Int) else -a.dy.m, a.dy.e⟩
    (put x none, fl, .none)
  else if i.op = wSel then
    let (t, f) := Num.compare i.mod a.toNum b.toNum
    let x : Wide := if cc.cls = .zero then { cc with neg := sg } else cc
    if t then (put x none, fl ||| f, .none) else (pass, fl ||| f, .none)
  else if i.op ≤ wRsqrt then let (x, f) := chainFun i.op (a.funZero sg) sg; (put x none, fl ||| f, .none)
  else if i.op = wDiv then
    let (x, f, q) := chainDiv (a.funZero sg) (b.funZero sg) sg
    (put x q, fl ||| f, .none)
  else if i.op = wTap then (pass, fl, .tap i.rd a)
  else (pass, fl, .red i a)

/-! ### Stages over a region (R125, R134) -/

/-- The rounding fields of an instruction that rounds (Table 3.4). -/
structure RndSpec where
  rnd : Rnd := .rne
  srb : Nat := 0
  salt : Nat := 0
  sat : Bool := true
deriving DecidableEq, Repr

/-- What a stage leaves: elements in row-major order, the core with its streams, terms of row and column statistics
(statistic, group, value), tapped codes, and flags. -/
structure StageOut where
  core : Core := {}
  elems : List Elem := []
  rowTerms : List (Nat × Nat × Wide) := []
  colTerms : List (Nat × Nat × Wide) := []
  taps : List (Nat × Nat × Nat × Nat) := []
  events : List FlagEvent := []
deriving DecidableEq, Repr

/-- The format of a tensor register. -/
def Core.tfmt (k : Core) (n : Nat) : Fmt := (TDesc.ofBits (k.treg n)).fmt

/-- Cycles of a program of len instructions over m rows of n columns, from batch (r, c / 64)'s instruction i on: batch by
batch, within a batch instruction by instruction, its last place for the row statistics that it completes (R125, R134). -/
def chainCycle (n len r c i : Nat) : Nat := (r * ceilDiv n 64 + c / 64) * (len + 1) + i

/-- The flags of a rounding inside a chain: no chain operation raises OVERFLOW or UNDERFLOW itself (R131). -/
def tapFlags (fl : Nat) : Nat := fl &&& (flInvalid ||| flDivzero)

/-- One instruction of element (r, col): statistics, taps with their draws, flags. -/
def StageOut.one (t : TileCtx) (rs : RndSpec) (v : ChainEnv) (r c col time : Nat) (o : StageOut) (e : Elem) (i : ChainInstr) :
    StageOut × Elem :=
  let (e, fl, x) := v.step r c col e i
  let at_ (fl : Nat) : List FlagEvent := if fl = 0 then [] else [{ flags := fl, row := r, col := col, time := time }]
  let o := { o with events := o.events ++ at_ fl }
  match x with
  | .none => (o, e)
  | .red i y =>
    if i.op = wRedRow then ({ o with rowTerms := o.rowTerms ++ [(4 * r + i.rd, col / 64, y)] }, e)
    else ({ o with colTerms := o.colTerms ++ [(4 * c + i.rd, r / 64, y)] }, e)
  | .tap tn y =>
    let (k, rd) := o.core.rounding t rs.rnd rs.srb rs.salt (col % 64)
    let (code, fl) := roundWide (k.tfmt tn) rd rs.sat y
    ({ o with core := k, taps := o.taps ++ [(tn, r, col, code)], events := o.events ++ at_ (tapFlags fl) }, e)

/-- A stage over M x N elements, rows ascending, then columns (R125). `start` gives an element's registers at its
beginning and the value ACC reads; col0 is the absolute column of the region's first. -/
def ChainEnv.stage (v : ChainEnv) (t : TileCtx) (rs : RndSpec) (k : Core) (prog : List ChainInstr) (m n col0 : Nat)
    (start : Nat → Nat → Elem × Option Wide) : StageOut :=
  (List.range m).foldl (fun o r => (List.range n).foldl (fun o c =>
    let (e, acc) := start r c
    let v := { v with stored := acc }
    let (o, e) := (prog.mapIdx fun i x => (i, x)).foldl (fun (x : StageOut × Elem) i =>
      x.1.one t rs v r c (col0 + c) (v.t0 + chainCycle n prog.length r c i.1) x.2 i.2) (o, e)
    { o with elems := o.elems ++ [e] }) o) { core := k }

/-- The starting value of a statistic (R134). -/
def statStart (kind : Nat) : Wide := if kind = 2 then { cls := .inf, neg := true } else {}

/-- A statistic joined by the terms of its groups in ascending order, with flags (R134). -/
def statAdd (kind : Nat) (x : Wide) (groups : List (List Wide)) : Wide × Nat :=
  groups.foldl (fun (a : Wide × Nat) g =>
    if g.isEmpty then a else
    if kind < 2 then
      let (w, fl) := a.1.addGroup (groupSum (g.map fun y => if kind = 1 then y.toNum.mul y.toNum else y.toNum.term))
      let w : Wide := if w.cls = .zero then {} else w.clamp
      (w.inherit (a.1 :: g), a.2 ||| fl)
    else
      (g.foldl (fun w y =>
        let y' : Num := if kind = 3 then { y.toNum with neg := false } else y.toNum
        ((Num.minMax 1 w.toNum y').1.toWide).inherit [w, y]) a.1, a.2)) (x, 0)

/-- The groups of one statistic's terms, in ascending order. -/
def groupsOf (key : Nat) (ts : List (Nat × Nat × Wide)) : List (List Wide) :=
  let mine := ts.filter fun x => x.1 = key
  let top := mine.foldl (fun a x => max a x.2.1) 0
  (List.range (top + 1)).map fun g => (mine.filter fun x => x.2.1 = g).map (·.2.2)

/-- The flags of a statistic, at its row or its absolute column (R89), col0 the region's first, in the cycle given. -/
def statEvent (op col0 : Nat) (cycle : Nat → Nat) (key fl : Nat) : FlagEvent :=
  if op = wRedRow then { flags := fl, row := key / 4, time := cycle (key / 4) }
  else { flags := fl, col := col0 + key / 4, time := cycle (key / 4) }

/-- The cycle in which a stage's statistic of row r is complete. -/
def rowCycle (t0 n len r : Nat) : Nat := t0 + chainCycle n len r (n - 1) len

/-- All statistics of n rows or columns after a stage, with their flags: those that the program names (R134). -/
def statsAfter (prog : List ChainInstr) (op n col0 : Nat) (cycle : Nat → Nat) (old : List (Nat × Wide))
    (ts : List (Nat × Nat × Wide)) : List (Nat × Wide) × List FlagEvent :=
  (List.range (4 * n)).foldl (fun (x : List (Nat × Wide) × List FlagEvent) key =>
    match statKind prog op (key % 4) with
    | none => match old.find? fun p => p.1 = key with
      | some p => (x.1 ++ [p], x.2)
      | none => x
    | some kind =>
      let w0 := match old.find? fun p => p.1 = key with | some p => p.2 | none => statStart kind
      let (w, fl) := statAdd kind w0 (groupsOf key ts)
      (x.1 ++ [(key, w)], if fl = 0 then x.2 else x.2 ++ [statEvent op col0 cycle key fl])) ([], [])

/-! ### The accumulators of a region (R124) -/

/-- A region's shape on the engines: EPI's and KVA's fields. -/
structure Layout where
  arrange : Nat := 0
  layout : Nat := 0
  eng : Nat := 0
  m : Nat := 0
  n : Nat := 0
deriving DecidableEq, Repr

/-- Rows and columns of an engine's share. -/
def Layout.share (l : Layout) : Nat × Nat :=
  if l.arrange = 0 then (ceilDiv l.m 4, l.n) else if l.arrange = 1 then (l.m, ceilDiv l.n 4) else (l.m, l.n)

/-- Whether the accumulators are in the wide-shallow layout. -/
def Layout.wide (l : Layout) : Bool := decide (l.layout = 2) || (decide (l.layout = 0) && decide (l.share.2 > 64))

/-- The accumulator of element (r, c) for a first tile. -/
def Layout.key (l : Layout) (tile r c : Nat) : Nat :=
  let (sr, sc) := l.share
  let (e, lr, lc) := if l.arrange = 0 then (r / sr, r % sr, c) else if l.arrange = 1 then (c / sc, r, c % sc) else (l.eng, r, c)
  accKey e l.wide (tile + lr / tileRows l.wide) (lr % tileRows l.wide) lc

/-- Whether a share starting at a tile stays within a0 to a7. -/
def Layout.fits (l : Layout) (tile : Nat) : Bool :=
  let (sr, sc) := l.share
  decide (tile + ceilDiv sr (tileRows l.wide) ≤ 8) && decide (sc ≤ if l.wide then 256 else 64)

/-- The accumulators of a region. -/
def Layout.read (l : Layout) (k : Core) (tile : Nat) : List Acc :=
  (List.range l.m).flatMap fun r => (List.range l.n).map fun c => k.accAt (l.key tile r c)

/-! ### A job: operands read (Table 5.3, R127) -/

/-- A tensor operand of a program: selector, descriptor, rows and columns read. -/
structure TensorUse where
  sel : Nat := 0
  d : TDesc := {}
  nr : Nat := 0
  c0 : Nat := 0
  nc : Nat := 0
deriving DecidableEq, Repr

/-- The tensor operands of a stage over m rows and n columns from col0 on. -/
def tensorUses (k : Core) (prog : List ChainInstr) (m n col0 : Nat) : List TensorUse :=
  ((prog.flatMap ChainInstr.sels).filter fun x => x ≥ 0x80).map fun sel =>
    let d := k.desc (sel % 32)
    if sel < 0xA0 then { sel := sel, d := d, nr := m, c0 := col0, nc := n }
    else if sel < 0xC0 then { sel := sel, d := d, nr := 1, c0 := col0, nc := n }
    else { sel := sel, d := d, nr := m, c0 := 0, nc := 1 }

/-- The byte ranges of a use. -/
def TensorUse.ranges (u : TensorUse) : List (Nat × Nat) := u.d.ranges 0 u.nr u.c0 u.nc

/-- Whether a program names a selector between two values. -/
def namesSel (prog : List ChainInstr) (lo hi : Nat) : Bool :=
  prog.any fun i => i.sels.any fun x => decide (lo ≤ x) && decide (x ≤ hi)

/-- The entries of the operand table that a use gives. -/
def State.useEntries (s : State) (u : TensorUse) : List (Nat × Num) :=
  (List.range u.nr).flatMap fun r => (List.range u.nc).map fun c => (operandKey u.sel r (u.c0 + c), s.elemNum u.d r (u.c0 + c))

/-- An anchor as an operand: INT32, 0x8000_0000 meaning minus infinity (R140). -/
def anchorWide (x : Nat) : Wide :=
  if x = 2 ^ 31 then { cls := .inf, neg := true } else (Num.ofInt (signed 32 x)).toWide

/-- The job of a program once its checks are passed: every operand read. `area` is the state array's address. -/
def State.gatherJob (s : State) (k : Core) (chain : List Nat) (slotted : Bool) (l : Layout) (dcol tile : Nat) (tile2 : Option Nat)
    (uses : List TensorUse) (rs : Bool) (area : Nat) : ChainJob :=
  { chain := chain, slotted := slotted, rows := l.m, cols := l.n, dcol := dcol, acc := l.read k tile,
    acc2 := match tile2 with | some x => l.read k x | none => []
    scalars := k.s
    tensors := Smap.putAll {} [] (uses.flatMap s.useEntries)
    rsv := if rs then (List.range l.m).map fun r => Wide.decode (s.peekN (area % 2 ^ 52 + 32 * r) 12) else []
    rsa := if rs then (List.range l.m).map fun r =>
      anchorWide (s.peekN (area % 2 ^ 52 + 32 * r + 12) 4) else [] }

/-- An accumulator as w0 where no chain runs: an integer-path sum goes through INT32 under its recorded SAT (R70,
R131), with OVERFLOW where that changes it. -/
def Acc.unchained (a : Acc) : Wide × Nat :=
  if a.int then
    let (x, fl) := narrowInt .int32 a.sat (if a.w.dy.e < 0 then a.w.dy.m / 2 ^ (-a.w.dy.e).toNat else a.w.dy.m * 2 ^ a.w.dy.e.toNat)
    ((Num.ofInt (signed 32 x)).toWide, fl)
  else (a.value, 0)

/-- The element at its start: stage 1 of a chain, or its accumulator where no chain runs (R121, R123, R129). -/
def ChainJob.start (j : ChainJob) (r c : Nat) : Elem :=
  let a := j.acc.getD (r * j.cols + c) {}
  { w := [if j.slotted then {} else a.unchained.1, {}, {}, {}], sigma := decide (a.w.cls = .zero) && decide (a.terms = .negZero) }

/-- OVERFLOW of the sums that an instruction without a chain reads (R70). -/
def ChainJob.readEvents (j : ChainJob) : List FlagEvent :=
  if j.slotted then [] else (List.range (j.rows * j.cols)).filterMap fun i =>
    let fl := (j.acc.getD i {}).unchained.2
    if fl = 0 then none else some { flags := fl, row := i / j.cols, col := j.dcol + i % j.cols, time := i / j.cols * ceilDiv j.cols 64 + i % j.cols / 64 }

/-! ### The final rounding (R131 to R133) -/

/-- The final value of an element; last says whether the chain's last instruction is the one that ran last on it. -/
def Elem.final (e : Elem) (last : Bool) : FinalVal :=
  let w := e.w.getD 0 {}
  match (if last then e.quot else none) with
  | some x => x
  | none => { w := w, num := w.dy }

end Sys2Proof.Machine
end

