-- ==== Sys2Proof/Machine/Epi.lean ====
section
/-! DEFINITION. EPI: a chain over a region of the accumulators, its one rounding and its outputs (R123 to R139, R145,
R146, R320). -/
namespace Sys2Proof.Machine

/-! ### Outputs held until END -/

/-- Bytes held for a ward address. A last unit on another node is filled with free bytes (log entry 2). -/
def State.holdAt (s : State) (ward a : Nat) (bs : List Byte) : State × List Held :=
  (pieces a bs.length).foldl (fun (x : State × List Held) p =>
    let data := (bs.drop (p.1 - a)).take p.2
    match x.1.locate ward p.1 true with
    | (_, .phys l) => (x.1, x.2 ++ [.write (.phys l) data false])
    | (_, l) => let (s, pad) := State.freeBytes (roundUp data.length 64 - data.length) x.1
                (s, x.2 ++ [.write l (data ++ pad) false])) (s, [])

/-- The byte whose upper nibble an odd run of INT4 codes leaves as it is. -/
def State.oldByte (s : State) (ward a : Nat) : State × Nat :=
  match s.locate ward a true with
  | (_, .phys l) => (s, (s.byte l).toNat)
  | _ => let (s, w) := s.free; (s, w.toNat % 256)

/-- The bytes of a run of codes of a format, lowest first; `old` fills the upper nibble of an odd INT4 run. -/
def codeBytes (f : Fmt) (codes : List Nat) (old : Nat) : List Byte :=
  match f with
  | .int4 => (List.range (ceilDiv codes.length 2)).map fun i =>
      BitVec.ofNat 8 (codes.getD (2 * i) 0 % 16 + 16 * (codes.getD (2 * i + 1) (old / 16) % 16))
  | f => codes.flatMap (bytesOf (f.bits / 8))

/-- A rectangle of element codes held for a tensor, stored line by stored line. -/
def State.holdRect (s : State) (ward : Nat) (d : TDesc) (nr c0 nc : Nat) (code : Nat → Nat → Nat) : State × List Held :=
  let (l0, nl, p0, np) := if d.trans then (c0, nc, 0, nr) else (0, nr, c0, nc)
  (List.range nl).foldl (fun (x : State × List Held) i =>
    let l := l0 + i
    let a := d.base + l * d.stride + p0 * d.fmt.bits / 8
    let codes := (List.range np).map fun p => if d.trans then code (p0 + p) l else code l (p0 + p)
    let (s, old) := if d.fmt = .int4 ∧ np % 2 = 1 then x.1.oldByte ward (a + np / 2) else (x.1, 0)
    let (s, h) := s.holdAt ward a (codeBytes d.fmt codes old)
    (s, x.2 ++ h)) (s, [])

/-! ### The plan of an EPI -/

/-- An EPI with its descriptors read: OUT, the region, the full row, the program's stages, addresses. -/
structure EpiPlan where
  out : TDesc := {}
  q : TDesc := {}
  m : Nat := 0
  n : Nat := 0
  ntot : Nat := 0
  lay : Layout := {}
  slotted : Bool := false
  filled : Bool := true
  chain : List Nat := []
  pre : List ChainInstr := []
  post : List ChainInstr := []
  hold : Bool := false
  area : Nat := 0
  stat : Nat := 0
  sig : Nat := 0
  dcol : Nat := 0
deriving DecidableEq, Repr

/-- The plan of an instruction on a core. DAREA = s0 gives the address 0 (log entry 143). -/
def epiPlan (k : Core) (w : EpiWord) : EpiPlan :=
  let out := k.desc w.out.toNat
  let slotted := decide (w.slot.toNat < 4)
  let chain := if slotted then k.slots.getD w.slot.toNat [] else []
  let (pre, post, hold) := chainStages chain
  let dcol := w.dcol.toNat
  let n := if w.defer = 0 then out.cols else min (64 * (w.dcols.toNat + 1)) (out.cols - dcol)
  let addr (r : BitVec 6) : Nat := k.adr r.toNat
  { out := out, q := k.desc w.qscale.toNat, m := out.rows, n := n, ntot := out.cols,
    lay := { arrange := w.arrange.toNat, layout := w.layout.toNat, eng := w.eng.toNat, m := out.rows, n := n },
    slotted := slotted, filled := !slotted || !chain.isEmpty, chain := chain, pre := pre, post := post, hold := hold,
    area := addr w.darea, stat := addr w.statout, sig := addr w.sig, dcol := dcol }

/-- Whether stage 2 and the final rounding run in this EPI. -/
def epiFinishes (w : EpiWord) : Bool := (w.defer = 0 || w.defer = 3) && w.twopass.toNat ≠ 1

/-- Columns over which stage 2 and the final rounding run, and their first absolute column (R125, R136). -/
def EpiPlan.finalCols (p : EpiPlan) (w : EpiWord) : Nat × Nat := if w.defer = 0 then (p.n, p.dcol) else (p.ntot, 0)

/-- The terms of stage 2's column statistics, by column of this EPI's region: a close runs stage 2 over the full row, of
which STATOUT has slots for the region's columns only (R135, R136; log entry 137). -/
def EpiPlan.ownTerms (p : EpiPlan) (w : EpiWord) (ts : List (Nat × Nat × Wide)) : List (Nat × Nat × Wide) :=
  if w.defer = 0 then ts else
    (ts.filter fun x => decide (4 * p.dcol ≤ x.1) && decide (x.1 < 4 * (p.dcol + p.n))).map fun x => (x.1 - 4 * p.dcol, x.2)

/-- Tensor operands of the stages that run. -/
def EpiPlan.uses (p : EpiPlan) (k : Core) (w : EpiWord) : List TensorUse :=
  let (nc, c0) := p.finalCols w
  tensorUses k p.pre p.m p.n p.dcol ++ (if epiFinishes w then tensorUses k p.post p.m nc c0 else [])

/-- Tapped tensors of a stage: register and descriptor. -/
def tapsOf (k : Core) (prog : List ChainInstr) : List (Nat × TDesc) :=
  ((prog.filter fun i => i.op = wTap).map fun i => (i.rd, k.desc i.rd)).eraseDups

/-- Block height and width of the quantisation (R133). -/
def EpiPlan.qBlock (p : EpiPlan) (w : EpiWord) : Nat × Nat :=
  if w.qgran.toNat = 1 then (p.m, p.ntot)
  else (16, if w.qcols = 0 then p.ntot else 32 * 2 ^ w.qcols.toNat)

/-- The block grid. -/
def EpiPlan.qGrid (p : EpiPlan) (w : EpiWord) : Nat × Nat :=
  let (h, b) := p.qBlock w
  (ceilDiv p.m h, ceilDiv p.ntot b)

/-- Table 12.13 with R44, R305 to R307: the decode checks. -/
def epiOk (w : EpiWord) : Bool :=
  w.ext && decide (w.rsv = 0) && decide (w.rsvExt = 0) && (decide (w.slot.toNat < 4) || decide (w.slot = 7))
    && decide (w.atile2.toNat ≤ 8) && decide (w.arrange ≠ 3) && decide (w.layout ≠ 3) && decide (w.rnd ≠ 3)
    && decide (w.qgran ≠ 3) && decide (w.twopass ≠ 3) && decide (w.send ≠ 3) && decide (w.out.toNat < 32)
    && unused (decide (w.qgran ≠ 0)) w.qscale && (if w.twopass = 2 then decide (w.npart ≠ 0) else decide (w.npart = 0))
    && unused (decide (w.arrange = 2)) w.eng && unused (decide (w.defer ≠ 0)) w.dcols

/-- Whether the open area is the one this EPI names. -/
def EpiPlan.matches_ (p : EpiPlan) (d : Deferred) : Bool :=
  decide (d.addr = p.area) && decide (d.rows = p.m) && decide (d.cols = p.ntot)

/-- The 64-column blocks that this EPI covers. -/
def EpiPlan.covers (p : EpiPlan) : List Nat := (List.range (ceilDiv p.n 64)).map fun i => p.dcol / 64 + i

/-- The open area after this EPI's own stage 1, where the order of its EPIs is right (R136, R137). -/
def EpiPlan.deferOpen (p : EpiPlan) (w : EpiWord) (d : Option Deferred) : Option Deferred :=
  if w.defer = 1 then (if d.isSome then none else
    some { addr := p.area, rows := p.m, cols := p.ntot, covered := p.covers, sigma := List.replicate (p.m * p.ntot) false })
  else match d with
  | some x => if p.matches_ x then some { x with covered := x.covered ++ p.covers } else none
  | none => none

/-- Whether a close finds every 64-column block covered exactly once. -/
def Deferred.whole (d : Deferred) : Bool :=
  let blocks := List.range (ceilDiv d.cols 64)
  decide (d.covered.length = blocks.length) && blocks.all fun b => decide (b ∈ d.covered)

/-- Bytes of the deferred area (R137). -/
def EpiPlan.areaBytes (p : EpiPlan) : Nat := 12 * (p.m * p.ntot) + 64 * p.m

/-- R46, R122, R124, R133, R136, R137, R320: the conditions of DESCRIPTOR. -/
def State.epiDescriptor (s : State) (c : Nat) (k : Core) (w : EpiWord) (p : EpiPlan) : Bool :=
  let prog := p.pre ++ p.post
  let acc2 := namesSel prog 5 5
  let taps := tapsOf k prog
  !p.out.ok || (p.uses k w).any (fun u => !u.d.ok) || taps.any (fun t => !t.2.ok)
    || !p.filled || (acc2 && decide (w.atile2 = 8)) || decide (p.n = 0) || decide (p.m > 512) || decide (p.n > 1024)
    || !p.lay.fits w.atile.toNat || (decide (w.atile2.toNat < 8) && !p.lay.fits w.atile2.toNat)
    || decide (p.dcol % 64 ≠ 0) || decide (w.defer ≠ 0 ∧ w.twopass ≠ 0)
    || (decide (w.qgran ≠ 0) &&
        (let (gi, gj) := p.qGrid w
         !p.q.ok || decide (p.out.fmt ≠ .int8 ∧ p.out.fmt ≠ .int4) || decide (p.q.fmt ≠ .bf16) || p.q.trans
           || decide (p.q.rows < gi) || decide (p.q.cols < gj)))
    || (decide (w.defer ≠ 0) &&
        (decide (p.ntot > 16384) || decide (p.m * p.ntot > 131072) || decide (p.area % 64 ≠ 0) || !s.own c p.area p.areaBytes
          || (p.deferOpen w k.deferred).isNone
          || (decide (w.defer = 3) && (namesSel p.post 4 5 || !((p.deferOpen w k.deferred).getD {}).whole))))

/-- The byte ranges that are read besides accumulators: tensors, the state array, the partial sets (R127, R139). -/
def EpiPlan.reads (p : EpiPlan) (k : Core) (w : EpiWord) : List (Nat × Nat) :=
  (p.uses k w).flatMap TensorUse.ranges
    ++ (if namesSel (p.pre ++ p.post) 0xC 0xD then [(p.area, 32 * p.m)] else [])
    ++ (if w.twopass = 2 then [(p.area, w.npart.toNat * p.m * 64)] else [])

/-- The targets of R145: their byte ranges, without the partial statistics of a statistic pass. -/
def EpiPlan.targets (p : EpiPlan) (k : Core) (w : EpiWord) : List (Nat × Nat) :=
  let (nc, c0) := p.finalCols w
  let (gi, gj) := p.qGrid w
  p.out.ranges 0 p.m 0 p.ntot
    ++ (if w.qgran = 0 then [] else p.q.ranges 0 gi 0 gj)
    ++ (if w.statout = 0 then [] else [(p.stat, 64 * p.m + 64 * p.n)])
    ++ (tapsOf k p.pre).flatMap (fun t => t.2.ranges 0 p.m p.dcol p.n)
    ++ (if epiFinishes w then (tapsOf k p.post).flatMap (fun t => t.2.ranges 0 p.m c0 nc) else [])

/-- The code of a range that a tile writes outside its core (R145, R146): translation, rights, route. -/
def State.targetCode (s : State) (ward a n : Nat) : Nat :=
  firstCode ((pieces a n).map fun p =>
    match s.locate ward p.1 true with
    | (0, .phys _) => 0
    | (0, .remote node _) => failIf (!s.reachable node) cUnreachable
    | (0, .window node _ _) => failIf (!s.reachable node) cUnreachable
    | (code, _) => code)

/-- The checks of an EPI when it leaves its queue, in one code (R146, R309). -/
def State.epiCode (s : State) (c : Nat) (k : Core) (t : TileCtx) (w : EpiWord) (p : EpiPlan) : Nat :=
  firstCode [
    failIf (s.epiDescriptor c k w p) cDescriptor,
    failIf ((p.reads k w).any fun r => !s.own c r.1 r.2) cNotLocal,
    (if w.send = 0 then failIf ((p.targets k w).any fun r => !s.own c r.1 r.2) cNotLocal
     else firstCode ((p.targets k w).map fun r => s.targetCode t.ward r.1 r.2)),
    (if w.twopass = 1 then s.targetCode t.ward p.area (64 * p.m) else 0),
    (if w.send = 1 then (s.signalPlace t.ward p.sig).1 else 0)]

/-! ### The run -/

/-- What an EPI gives: the core after it, outputs to hold, flags of the chain and of the final rounding. -/
structure EpiOut where
  core : Core := {}
  held : List Held := []
  chainEvents : List FlagEvent := []
  finalEvents : List FlagEvent := []
deriving DecidableEq, Repr

/-- Codes of the elements, rounded in row-major order (R125, R131): the core, the codes and the flags. -/
def finalRound (k : Core) (t : TileCtx) (rs : RndSpec) (n col0 : Nat) (round : Nat → Rounding → Nat × Nat) (cnt : Nat) :
    Core × List Nat × List FlagEvent :=
  (List.range cnt).foldl (fun (x : Core × List Nat × List FlagEvent) i =>
    let (k, rd) := x.1.rounding t rs.rnd rs.srb rs.salt ((col0 + i % n) % 64)
    let (code, fl) := round i rd
    (k, x.2.1 ++ [code], if fl = 0 then x.2.2 else
      x.2.2 ++ [{ flags := fl, row := i / n, col := col0 + i % n, time := i / n * ceilDiv n 64 + i % n / 64 }])) (k, [], [])

/-- The 16-byte slot of a statistic (R135). -/
def slotBytes (w : Wide) : List Byte := bytesOf 16 w.encode

/-- The statistics of n rows or columns, in slots; one that no W.RED names is free (log entry 2). -/
def statSlots (xs : List (Nat × Wide)) (n free : Nat) : List Byte :=
  (List.range (4 * n)).flatMap fun key =>
    slotBytes (match xs.find? fun p => p.1 = key with | some p => p.2 | none => freeWide (free + 2 * key))

/-- The statistics stored from an address on: 64 bytes per row. -/
def State.storedStats (s : State) (a m : Nat) : List (Nat × Wide) :=
  (List.range (4 * m)).map fun key => (key, Wide.decode (s.peekN (a + 16 * key) 12))

/-- One partial statistic joined to another of its kind; one that no W.RED names stays (R139). -/
def combineStat (kind : Option Nat) (x y : Wide) : Wide × Nat :=
  match kind with
  | none => (x, 0)
  | some k =>
    if k < 2 then
      let (w, fl) := x.addGroup y.asGroup
      ((if w.cls = WCls.zero then ({} : Wide) else w.clamp).inherit [x, y], fl)
    else (((Num.minMax 1 x.toNum y.toNum).1.toWide).inherit [x, y], 0)

/-- Partial sets combined in ascending order (R139). -/
def combineSets (prog : List ChainInstr) (sets : List (List (Nat × Wide))) : List (Nat × Wide) × List FlagEvent :=
  match sets with
  | [] => ([], [])
  | x :: xs => xs.foldl (fun (a : List (Nat × Wide) × List FlagEvent) y =>
      let r := a.1.map fun p =>
        let (w, fl) := combineStat (statKind prog wRedRow (p.1 % 4)) p.2 (((y.find? fun q => q.1 = p.1).map (·.2)).getD {})
        (p.1, w, fl)
      (r.map fun z => (z.1, z.2.1), a.2 ++ (r.filter fun z => z.2.2 ≠ 0).map fun z => statEvent wRedRow 0 (fun _ => 0) z.1 z.2.2)) (x, [])

/-- Tapped codes held for their tensors (R135, R136). -/
def State.holdTaps (s : State) (t : TileCtx) (taps : List (Nat × TDesc)) (m c0 nc : Nat) (codes : List (Nat × Nat × Nat × Nat)) :
    State × List Held :=
  let last := codes.reverse
  taps.foldl (fun (x : State × List Held) tap =>
    let (s, h) := x.1.holdRect t.ward tap.2 m c0 nc fun r c =>
      ((last.find? fun q => decide (q.1 = tap.1) && decide (q.2.1 = r) && decide (q.2.2.1 = c)).map (·.2.2.2)).getD 0
    (s, x.2 ++ h)) (s, [])

/-- The accumulators of a region replaced by the stage-1 values (R125). -/
def Layout.store (l : Layout) (k : Core) (tile : Nat) (es : List Elem) : Core :=
  (List.range (l.m * l.n)).foldl (fun k i =>
    let e := es.getD i {}
    let w := e.w.getD 0 {}
    k.setAcc (l.key tile (i / l.n) (i % l.n))
      { w := w, terms := if w.cls = .zero ∧ w.neg then .negZero else .other, int := false }) k

/-- The run of an EPI on its job (R125 to R139). A flag of a quantisation block names the block's first element (log entry
139); a deferred tile stores w0, not the exact quotient (log entry 142). -/
def State.epiRun (s : State) (k : Core) (t : TileCtx) (w : EpiWord) (p : EpiPlan) (j : ChainJob) : State × EpiOut × Nat :=
  let rs : RndSpec := { rnd := (Rnd.ofCode w.rnd.toNat).getD .rne, srb := w.srb.toNat, salt := w.salt.toNat, sat := w.sat }
  let free := s.freeCount
  let s := { s with freeCount := free + 8 * (p.m + p.n) }
  let all := p.pre ++ p.post
  let area := p.area % 2 ^ 52
  let statArea := area + 12 * (p.m * p.ntot)
  let (s, dmg) :=
    if w.defer = 3 then s.readRanges [(area, p.areaBytes)]
    else if w.defer = 2 then s.readRanges [(statArea, 64 * p.m)] else (s, 0)
  -- stage 1
  let o := ({ job := j, free := free } : ChainEnv).stage t rs k p.pre p.m p.n p.dcol fun r c => (j.start r c, none)
  let old :=
    if w.defer = 2 ∨ w.defer = 3 then s.storedStats statArea p.m else []
  let (stats, ev1) :=
    if w.twopass = 2 then combineSets all ((List.range w.npart.toNat).map fun i => s.storedStats (area + 64 * p.m * i) p.m)
    else statsAfter all wRedRow p.m 0 (rowCycle 0 p.n p.pre.length) old o.rowTerms
  let df := p.deferOpen w k.deferred
  let s := if w.defer = 0 then s else
    let s := (List.range p.m).foldl (fun s r =>
      s.write (area + 12 * (r * p.ntot + p.dcol))
        ((List.range p.n).flatMap fun c => bytesOf 12 (((o.elems.getD (r * p.n + c) {}).w.getD 0 {}).encode))) s
    s.write statArea (statSlots stats p.m free)
  let df := df.map fun d => { d with sigma := (List.range (p.m * p.n)).foldl (fun l i =>
    l.set (i / p.n * p.ntot + p.dcol + i % p.n) (o.elems.getD i {}).sigma) d.sigma }
  let k := { o.core with deferred := if w.defer = 0 then k.deferred else if w.defer = 3 then none else df }
  -- stage 2
  let (nc, c0) := p.finalCols w
  let t1 := chainCycle p.n p.pre.length p.m 0 0
  let o2 :=
    if epiFinishes w = false then { core := k }
    else if w.defer = 3 then
      ({ job := j, stats := stats, free := free, t0 := t1 } : ChainEnv).stage t rs k p.post p.m nc c0 fun r c =>
        ({ w := [Wide.decode (s.peekN (area + 12 * (r * p.ntot + c)) 12), {}, {}, {}],
           sigma := (df.getD {}).sigma.getD (r * p.ntot + c) false }, none)
    else if p.hold then
      let k := p.lay.store k w.atile.toNat o.elems
      ({ job := j, stats := stats, free := free, t0 := t1 } : ChainEnv).stage t rs k p.post p.m nc c0 fun r c =>
        let e := o.elems.getD (r * nc + c) {}
        let w0 := e.w.getD 0 {}
        ({ w := [w0, {}, {}, {}], sigma := e.sigma }, some w0)
    else { core := k, elems := o.elems }
  let (stats2, ev2) := statsAfter all wRedRow p.m 0 (rowCycle t1 nc p.post.length) stats o2.rowTerms
  let (cols, ev3) := statsAfter all wRedCol p.n p.dcol (fun _ => t1 + chainCycle nc p.post.length p.m 0 0) []
    (o.colTerms ++ p.ownTerms w o2.colTerms)
  -- the final rounding
  let fins := o2.elems.map fun e => e.final true
  let cnt := if epiFinishes w then p.m * nc else 0
  let (bh, bw) := p.qBlock w
  let (gi, gj) := p.qGrid w
  let q := if p.out.fmt = .int8 then 127 else 7
  let blockOf (i : Nat) : Nat := i / nc / bh * gj + i % nc / bw
  let scales := if w.qgran = 0 ∨ cnt = 0 then [] else (List.range (gi * gj)).map fun b =>
    blockScale (((List.range cnt).filter fun i => blockOf i = b).map fun i => fins.getD i {}) q
  let (k, codes, evf) := finalRound o2.core t rs nc c0 (fun i rd =>
    let x := fins.getD i {}
    if w.qgran = 0 then
      x.round p.out.fmt rd w.sat
    else
      let marks := (if x.w.ovr then flOverflow else 0) ||| (if x.w.unr then flUnderflow else 0)
      let (sc, _, ok) := scales.getD (blockOf i) (0, 0, false)
      if ok then (unsignedOf p.out.fmt.bits (roundInt rd x.neg (x.over (Num.decode .bf16 sc).dy)), marks) else (0, marks)) cnt
  let evq := (List.range scales.length).filterMap fun b =>
    let fl := (scales.getD b (0, 0, false)).2.1
    if fl = 0 then none else some { flags := fl, row := b / gj * bh, col := c0 + b % gj * bw : FlagEvent }
  -- the outputs
  let (s, h1) := if cnt = 0 then (s, []) else s.holdRect t.ward p.out p.m 0 p.ntot fun r c => codes.getD (r * nc + c) 0
  let (s, h2) := if scales.isEmpty then (s, []) else s.holdRect t.ward p.q gi 0 gj fun i x => (scales.getD (i * gj + x) (0, 0, false)).1
  let (s, h3) := if w.twopass = 1 then (s, []) else s.holdTaps t (tapsOf k p.pre) p.m p.dcol p.n o.taps
  let (s, h4) := s.holdTaps t (if epiFinishes w then tapsOf k p.post else []) p.m c0 nc o2.taps
  let (s, h5) := if w.statout = 0 then (s, []) else
    s.holdAt t.ward p.stat (statSlots stats2 p.m free ++ statSlots cols p.n (free + 8 * p.m))
  let (s, h6) := if w.twopass = 1 then s.holdAt t.ward p.area (statSlots stats p.m free) else (s, [])
  let sig := if w.send = 1 then [Held.signal (s.signalPlace t.ward p.sig).2 1] else []
  (s, { core := k, held := h1 ++ h2 ++ h3 ++ h4 ++ h5 ++ h6 ++ sig, chainEvents := o.events ++ ev1 ++ o2.events ++ ev2 ++ ev3,
        finalEvents := j.readEvents ++ evq ++ evf }, dmg)

/-- The flags of a chain, then those of the final rounding. The spec gives KGROUP no value for a chain's own flags:
it is free (log entry 2); a combination's has its own (R89). -/
def State.raiseChain (s : State) (c : Nat) (t : TileCtx) (o : EpiOut) : State :=
  let s := if o.chainEvents.isEmpty then s else
    let (s, x) := s.free
    s.raise c t (o.chainEvents.map fun e => if e.kgroup = kgSplit then e else { e with kgroup := x.toNat % 2 ^ 32 })
  s.raise c t o.finalEvents

/-- The blocks that an EPI holds for writing from now until release (R320). Those of an open deferred area stand with
the area (R137), and join the others at its close. -/
def State.epiBlocks (s : State) (c : Nat) (w : EpiWord) (p : EpiPlan) (old : List Nat) : List Nat :=
  let own (a n : Nat) : List Nat := match s.ownOff c a with | some off => blocksOf off n | none => []
  let (gi, gj) := p.qGrid w
  old ++ (p.out.ranges 0 p.m 0 p.ntot).flatMap (fun r => own r.1 r.2)
    ++ (if w.qgran = 0 then [] else (p.q.ranges 0 gi 0 gj).flatMap fun r => own r.1 r.2)
    ++ (if w.statout = 0 then [] else own p.stat (64 * p.m + 64 * p.n))
    ++ (if w.defer = 3 then own p.area p.areaBytes else [])

/-- R280: whether OUT is a part of copy j of an operation: its format, and every line within the copy. -/
def EpiPlan.fused (p : EpiPlan) (o : ColOp) (j : Nat) : Bool :=
  let lo := o.word 0 + j * o.copyStride
  decide (o.kind < 3) && decide (j < o.contribs) && decide (p.out.fmt = o.cfmt)
    && (p.out.ranges 0 p.m 0 p.ntot).all fun r => decide (lo ≤ r.1) && decide (r.1 + r.2 ≤ lo + o.n * o.cfmt.bits / 8)

/-- The counts of delivery at release (R280, R281). -/
def EpiPlan.deliveries (p : EpiPlan) (o : ColOp) (j : Nat) : List Held :=
  let lo := o.word 0 + j * o.copyStride
  (p.out.ranges 0 p.m 0 p.ntot).map fun r => .deliver o.group o.optag j ((r.1 - lo) * 8 / o.cfmt.bits) (r.2 * 8 / o.cfmt.bits)

/-- The expert fields of an EPI in force (R9, R64). -/
def epiInForce (w : EpiWord) (t : TileCtx) : EpiWord :=
  if t.unlocked then w else { w with srb := 0, salt := 0, layout := 0 }

/-- An EPI that has passed its checks: operands read, then run, or recorded for the combination (R36). A recorded one
has made its draws by then, so that the tile's later draws follow them in program order (R80). -/
def State.epiGo (s : State) (c : Nat) (t : TileCtx) (w : EpiWord) (p : EpiPlan) (deliver : List Held) : State × Nat :=
  let k := s.core c
  let (s, d) := s.readRanges (p.reads k w)
  if d ≠ 0 then (s, d) else
  let j := s.gatherJob k p.chain p.slotted p.lay p.dcol w.atile.toNat (if w.atile2 = 8 then none else some w.atile2.toNat)
    (p.uses k w) (namesSel (p.pre ++ p.post) 0xC 0xD) p.area
  let k := { s.core c with blocks := s.epiBlocks c w p (s.core c).blocks }
  if t.splitK > 1 ∧ w.send ≠ 2 then
    let df := if w.defer = 0 then k.deferred else if w.defer = 3 then none else p.deferOpen w k.deferred
    let (_, o, _) := s.epiRun k t w p j
    (s.setCore c { k with deferred := df, streams := o.core.streams, partials := k.partials ++
      [{ kp := t.kp, core := c, kind := .epi w, job := j, tregs := k.t, sregs := k.s, streams := k.streams }] }, 0)
  else
    let (s, o, d) := s.epiRun k t w p j
    if d ≠ 0 then (s, d) else
    let s := s.setCore c { o.core with held := o.core.held ++ o.held ++ (if epiFinishes w then deliver else []) }
    (s.raiseChain c t o, 0)

/-- EPI once decoded. -/
def epiInstr (c : Nat) (w : EpiWord) : Run := fun s t =>
  let s := s.noteIgnored t [w.srb.toNat, w.salt.toNat, w.layout.toNat]
  let w := epiInForce w t
  let k := s.core c
  let p := epiPlan k w
  let code := s.epiCode c k t w p
  if w.send = 2 then
    match s.colOpen t p.sig with
    | (_, .fault x) => (s, firstCode [code, x])
    | (s', .wait) => if code ≠ 0 then (s, code) else (s'.waitIn c 2 .opening, 0)
    | (s', .op g tag) =>
      match s'.colOp g tag with
      | none => (s, cDescriptor)
      | some o =>
        let code := firstCode [code, failIf (!p.fused o t.kp) cDescriptor]
        if code ≠ 0 then (s, code) else (s'.takeEarly g tag).epiGo c t w p (p.deliveries o t.kp)
  else if code ≠ 0 then (s, code) else s.epiGo c t w p []

/-- EPI (R123): one that reads a block held for release stays in its queue (R48). -/
def execEpi (c : Nat) (w : EpiWord) (s : State) : Out :=
  let s := s.resumeWait c .opening
  let held := s.heldFor c fun t =>
    let k := s.core c
    let w := epiInForce w t
    k.accHeld || ((epiPlan k w).reads k w).any fun r => s.blocked c r.1 r.2
  s.issueUnless c 2 held (epiOk w) (epiInstr c w)

/-! ### SPLIT_K (R36) -/

/-- Two jobs of one instruction combined at full accumulator width: the later one's environment, the sums, and the
flags per element. -/
def ChainJob.join (a b : ChainJob) : ChainJob × List FlagEvent :=
  let go (xs ys : List Acc) : List Acc × List FlagEvent :=
    (List.range ys.length).foldl (fun (r : List Acc × List FlagEvent) i =>
      let (x, fl) := (xs.getD i {}).combine (ys.getD i {})
      (r.1 ++ [x], if fl = 0 then r.2 else
        r.2 ++ [{ flags := fl, row := i / b.cols, col := b.dcol + i % b.cols, kgroup := kgSplit }])) ([], [])
  let (x, e1) := go a.acc b.acc
  let (y, e2) := go a.acc2 b.acc2
  ({ b with acc := x, acc2 := y }, e1 ++ e2)

/-- The partials of one instruction, in ascending kp, joined. -/
def joinJobs : List ChainJob → ChainJob × List FlagEvent
  | [] => ({}, [])
  | j :: js => js.foldl (fun x b => let (c, e) := x.1.join b; (c, x.2 ++ e)) (j, [])

end Sys2Proof.Machine
end

