-- ==== Sys2Proof/Machine/Anchor.lean ====
section
/-! DEFINITION. What MMF and attention share: the anchored row state (R141, R151), numerators rounded once to COF
(R472), and rotary codes (R161). -/
namespace Sys2Proof.Machine

/-! ### Numerators -/

/-- RNE_to_COF of a positive value known to lie from lo x 2^k to hi x 2^k, both ends rounding alike unless the
model's precision does not decide (log entry 6). -/
def cofMag (lo hi : Nat) (k : Int) (sticky : Bool) : Num :=
  let one (n : Nat) : Nat × Int :=
    let q := (n.log2 : Int) + k - 10
    let r := (roundAt {} ⟨n, k, sticky⟩ q).1
    if r = 2048 then (1024, q + 1) else (r, q)
  let (n, q) := one lo
  let (n, q) := if one hi = (n, q) ∨ Config.undecided lo % 2 = 0 then (n, q) else one hi
  (rneToCof { cls := .fin, sig := n, ex := q }).1

/-- RNE_to_COF(2^x x scale) for a positive dyadic scale (R141, R151). -/
def numerator (x : Dy) (sig : Nat) (ex : Int) : Num :=
  let m := exp2Mag x
  let k := m.k + ex
  if m.sticky then cofMag (m.n * sig) (m.n * sig + sig - 1) k true else cofMag (m.n * sig) (m.n * sig) k false

/-- ceil of a dyadic number. -/
def Dy.ceil (x : Dy) : Int := if x.e ≥ 0 then x.m * 2 ^ x.e.toNat else -((-x.m) / 2 ^ (-x.e).toNat)

/-! ### Rows -/

/-- The running state of a row (R140, R151): whether it has become NaN, the anchor (none is minus infinity), the row
sum and the outputs. -/
structure Row where
  nan : Bool := false
  a : Option Int := none
  l : Acc := {}
  o : List Acc := []
deriving DecidableEq, Repr

/-- An accumulator multiplied by 2^k, k at most 0, exactly (R141, R151); an exponent below -2^17 stands for every lower
one, which no output can tell from it. -/
def Acc.shift (x : Acc) (k : Int) : Acc :=
  if x.w.cls = .fin then { x with w := { x.w with ex := max (x.w.ex + k) (-131072) } } else x

/-- A row whose anchor rises to a value, and whether partials of it were lost (Table 6.4). `drop` says whether a rise
of 79 or more replaces the partials by +0 (R151) or shifts them (R141). -/
def Row.rise (r : Row) (a : Int) (drop : Bool) : Row × Bool :=
  match r.a with
  | none => ({ r with a := some a }, false)
  | some b =>
    if a ≤ b then (r, false) else
    let lost := decide (a - b ≥ 79)
    let f (x : Acc) : Acc := if lost && drop then { x with w := {}, terms := .other } else x.shift (b - a)
    ({ r with a := some a, l := f r.l, o := r.o.map f }, lost)

/-- The row as NaN (R156). -/
def Row.dead (r : Row) : Row :=
  { nan := true, a := some 0, l := { w := { cls := .nan } }, o := r.o.map fun x => { x with w := { cls := .nan } } }

/-- One score's part in a block (R151): its slot, the score, the value row it multiplies and the scale of that row's
page. -/
structure Key where
  slot : Nat := 0
  s : Wide := {}
  v : List Num := []
  scale : Num := { cls := .fin, sig := 1 }
deriving DecidableEq, Repr

/-- Numerators of a score under an anchor: for the row sum, and for the outputs (R151). A score of minus infinity
gives +0, as does a power below 2^-510 in the sum (R141). -/
def Key.nums (k : Key) (a : Option Int) : Num × Num :=
  match a with
  | none => ({}, {})
  | some a =>
    if k.s.cls = .inf then ({}, {}) else
    let x := k.s.dy.add ⟨-a, 0⟩
    let p := if x.lt ⟨-510, 0⟩ then {} else numerator x 1 0
    let pv := match k.scale.cls with
      | .fin => if k.scale.sig = 1 ∧ k.scale.ex = 0 then p else numerator x k.scale.sig k.scale.ex
      | .zero => {}
      | .inf => { cls := .inf }
      | _ => { cls := .qnan }
    (p, pv)

/-- Keys in groups of n slots, in ascending order. -/
def keyGroups {α : Type} (slot : α → Nat) (n : Nat) (ks : List α) : List (List α) :=
  match ks.map slot with
  | [] => []
  | x :: xs =>
    let lo := xs.foldl min x / n
    let hi := xs.foldl max x / n
    ((List.range (hi + 1 - lo)).map fun i => ks.filter fun k => slot k / n = lo + i).filter fun g => !g.isEmpty

/-- What a block does to a row: the row, flags with their columns and the block's stage (0 scores, 1 the row sum, 2 the
outputs) as their time, and whether its anchor lost partials. -/
structure RowOut where
  row : Row := {}
  events : List FlagEvent := []
  lost : Bool := false
  cofs : List Num := []
deriving DecidableEq, Repr

/-- The anchor of a row after a block's scores: the old one raised to the ceiling of the highest finite score. -/
def Row.anchorAfter (r : Row) (ks : List Key) : Option Int :=
  (ks.filter fun k => decide (k.s.cls ≠ .inf) && decide (k.s.cls ≠ .nan)).foldl (fun a k =>
    let c := k.s.dy.ceil
    some (match a with | none => c | some b => max b c)) r.a

/-- One block of one row (R141, R151, Table 6.4): `depth` is the form's group depth, drop as Row.rise. In a row that is or
becomes NaN every numerator is the COF quiet NaN, and the products still raise their flags (R74; log entry 138). -/
def Row.block (r : Row) (ks : List Key) (depth : Nat) (drop : Bool) : RowOut :=
  if ks.isEmpty then { row := r } else
  let high := ks.find? fun k => decide (k.s.cls = .inf) && !k.s.neg
  let nan := r.nan || ks.any fun k => decide (k.s.cls = .nan)
  let top := if r.nan then none else r.anchorAfter ks
  let far := (match top with | some a => decide (a.natAbs ≥ 2 ^ 30) | none => false)
  let dead := nan || high.isSome || far
  let ev0 : List FlagEvent := match high with
    | some k => [{ flags := flInvalid, col := k.slot }]
    | none => if far && !nan then [{ flags := flInvalid }] else []
  let (r1, lost) := if dead then (r.dead, false) else match top with | some a => r.rise a drop | none => (r, false)
  let ps := ks.map fun k => (k, if dead then (({ cls := .qnan } : Num), ({ cls := .qnan } : Num)) else k.nums r1.a)
  let (l, fl) := (keyGroups (fun x : Key × Num × Num => x.1.slot) 64 ps).foldl (fun (x : Acc × Nat) g =>
    let (y, f) := x.1.addGroup (groupSum (g.map fun p => p.2.1.term)) true
    (y, x.2 ||| f)) (r1.l, 0)
  let gs := keyGroups (fun x : Key × Num × Num => x.1.slot) depth ps
  let os := r1.o.mapIdx fun d o => gs.foldl (fun (x : Acc × Nat) g =>
    let (y, f) := x.1.addGroup (groupSum (g.map fun p => p.2.2.mul (p.1.v.getD d {}))) true
    (y, x.2 ||| f)) (o, 0)
  { row := { r1 with l := l, o := os.map (·.1) }, lost := lost, cofs := ps.map (·.2.1),
    events := (ev0 ++ [({ flags := fl, time := 1 } : FlagEvent)]
      ++ os.mapIdx fun d (x : Acc × Nat) => ({ flags := x.2, col := d, time := 2 } : FlagEvent)).filter fun e => e.flags ≠ 0 }

/-- The 32 bytes of a row's state: the sum, the anchor and 16 further bytes (R140, Table 6.5). -/
def Row.encode (r : Row) (lse : Nat) : List Byte :=
  bytesOf 12 r.l.value.encode ++ bytesOf 4 (match r.a with | some a => unsignedOf 32 a | none => 2 ^ 31) ++
  bytesOf 4 lse ++ bytesOf 12 0

/-- The row that a record spells, with no outputs. -/
def Row.decode (bs : List Byte) : Row :=
  let w := Wide.decode (ofBytes (bs.take 12))
  let a := ofBytes ((bs.drop 12).take 4)
  { nan := decide (w.cls = .nan), a := if a = 2 ^ 31 then none else some (signed 32 a),
    l := { w := w, terms := if w.cls = .zero ∧ w.neg then .negZero else .other } }

/-! ### Rotary codes (R161) -/

/-- Sum of (-1)^i x^(2i+1+o-1) / ..., the alternating series of sine (o = 1) and cosine (o = 0) of r in fixed point
of p bits: k terms from term t on; sgn says whether the next is subtracted. -/
def trigGo (p r2 : Nat) : Nat → Nat → Nat → Bool → Int
  | 0, _, _, _ => 0
  | k + 1, i, t, sgn =>
    (if sgn then -(t : Int) else t) + trigGo p r2 k (i + 2) (((t * r2) >>> p) / ((i + 1) * (i + 2))) (!sgn)

/-- Sine and cosine of a fixed-point angle below 2. -/
def sinFix (p r : Nat) : Int := trigGo p ((r * r) >>> p) (p / 4 + 16) 1 r false
def cosFix (p r : Nat) : Int := trigGo p ((r * r) >>> p) (p / 4 + 16) 0 (2 ^ p) false

/-- The alternating sum of arctangent's series for 1/d. -/
def atanGo (d : Nat) : Nat → Nat → Nat → Bool → Int
  | 0, _, _, _ => 0
  | k + 1, i, t, sgn => (if sgn then -((t / i : Nat) : Int) else (t / i : Nat)) + atanGo d k (i + 2) (t / (d * d)) (!sgn)

/-- pi / 2 in fixed point of p bits (8 atan(1/5) - 2 atan(1/239)). -/
def halfPiFix (p : Nat) : Nat :=
  (8 * atanGo 5 (p / 4 + 8) 1 (2 ^ p / 5) false - 2 * atanGo 239 (p / 12 + 8) 1 (2 ^ p / 239) false).toNat

/-- The 64-bit floor form of |v| for v within err of a fixed-point value; with its sign. -/
def decideNear (p : Nat) (v : Int) (err : Nat) : Option (Bool × Mag) :=
  if v.natAbs ≤ err then none
  else (decide64 p (v.natAbs - err) (v.natAbs + err)).map fun m => (decide (v < 0), m)

/-- Sine (co false) or cosine of a positive dyadic angle at precision p. -/
def trigAt (co : Bool) (m : Nat) (e : Int) (p : Nat) : Option (Bool × Mag) :=
  let x := if e + p ≥ 0 then m <<< (e + p).toNat else m >>> (-(e + p)).toNat
  let h := halfPiFix p
  let q := x / h
  let r := x - q * h
  let err := (q + 2) * fixSlack p
  let v := if (if co then q + 1 else q) % 2 = 0 then sinFix p r else cosFix p r
  let neg := if co then decide (q % 4 = 1) || decide (q % 4 = 2) else decide (q % 4 ≥ 2)
  decideNear p (if neg then -v else v) err

/-- RNE24 of the sine or cosine of a dyadic angle (R130, R161). -/
def trig24 (co : Bool) (x : Dy) : Wide :=
  if x.m = 0 then (if co then Wide.ofDy ⟨1, 0⟩ else {}) else
  let f := trigAt co x.m.natAbs x.e
  match f 256 with
  | some (n, m) => round24 n m
  | none =>
    match f 640 with
    | some (n, m) => round24 n m
    | none =>
      match f 2600 with
      | some (n, m) => round24 n m
      | none => round24 (decide (Config.undecided x.m.natAbs % 2 = 1)) ⟨2 ^ 23 + Config.undecided x.m.natAbs % 2 ^ 23, -24, true⟩

/-- base^(-i / n) for a base m x 2^e above 1 at precision p, where it is no power of two. -/
def powAt (m : Nat) (e : Int) (i n p : Nat) : Option Mag :=
  let l := m.log2
  let r := if m = 2 ^ l then (0, 0) else log2Frac p m l
  let j := ((l : Int) + e).toNat * 2 ^ p
  let ylo := (j + r.1) * i / n
  let yhi := ((j + r.2) * i + n - 1) / n
  let c := ceilDiv yhi (2 ^ p)
  if ceilDiv ylo (2 ^ p) ≠ c then none else
  let ex (y : Nat) : Nat := expFix p (((c * 2 ^ p - y) * ln2Fix p) >>> p)
  (decide64 p (ex yhi) (ex ylo + fixSlack p)).map fun x => { x with k := x.k - c }

/-- θ_i as an FP32 code (R161). -/
def rotTheta (base i rp : Nat) : Nat :=
  let b := Num.decode .fp32 base
  if i = 0 then 0x3F800000 else
  let l := b.sig.log2
  let tot := ((l : Int) + b.ex).toNat * i
  if b.sig = 2 ^ l ∧ tot % rp = 0 then (roundFloat .fp32 {} false ⟨1, -((tot / rp : Nat) : Int), false⟩).1
  else (roundFloat .fp32 {} false (decideUp (powAt b.sig b.ex i rp) 0 (base + i))).1

/-- cs and sn of a pair at a position. -/
def rotCodes (base i rp pos : Nat) : Num × Num :=
  let t := Num.decode .fp32 (rotTheta base i rp)
  let phi : Dy := ⟨(t.sig * pos : Nat), t.ex⟩
  ((trig24 true phi).toNum, (trig24 false phi).toNum)

/-- The dimensions of pair i, and the pair of a dimension (R161): half-split or interleaved. -/
def rotPair (half : Bool) (i rp : Nat) : Nat × Nat := if half then (i, i + rp) else (2 * i, 2 * i + 1)

/-- The two sums of a rotated pair. -/
def rotSums (xa xb cs sn : Num) : GroupSum × GroupSum :=
  (exactSum [xa.mul cs, (xb.mul sn).negate], exactSum [xa.mul sn, xb.mul cs])

/-- A sum rounded once to COF, a zero as +0, with flags. -/
def GroupSum.cof (g : GroupSum) : Num × Nat :=
  let x : Num :=
    if g.nan then { cls := .qnan } else if g.pinf then { cls := .inf } else if g.ninf then { cls := .inf, neg := true }
    else if g.sum.m = 0 then {} else { cls := .fin, neg := decide (g.sum.m < 0), sig := g.sum.m.natAbs, ex := g.sum.e }
  let (y, fl) := rneToCof x
  (y, fl ||| g.flags)

/-- The flags of a pair's two dimensions, each with its dimension. -/
def pairFlags (a b fa fb : Nat) : List (Nat × Nat) := [(a, fa), (b, fb)].filter fun p => p.2 ≠ 0

/-- A vector rotated at a position (R161): operands in COF, and flags with their dimensions. -/
def rotate (codes : List (Num × Num)) (half : Bool) (xs : List Num) : List Num × List (Nat × Nat) :=
  let rp := codes.length
  let sums := codes.mapIdx fun i c =>
    let (a, b) := rotPair half i rp
    let (u, v) := rotSums (xs.getD a {}) (xs.getD b {}) c.1 c.2
    (a, b, u.cof, v.cof)
  let ys := sums.foldl (fun (l : List Num) x => (l.set x.1 x.2.2.1.1).set x.2.1 x.2.2.2.1) (xs.map Num.toCofNum)
  (ys, sums.flatMap fun x => pairFlags x.1 x.2.1 x.2.2.1.2 x.2.2.2.2)

end Sys2Proof.Machine
end

