-- ==== Sys2Proof/Machine/KvTable.lean ====
section
/-! DEFINITION. KV page tables, entries, frame pools and pages (07_kv_pages.md): the shared operations of KVA,
SCATTER, PAGE.TRUNC, walks and the export engine. -/
namespace Sys2Proof.Machine

/-! ### Tables and entries -/

/-- A page-table header (Table 7.2). -/
structure KvTab where
  ward : Nat := 0
  addr : Nat := 0
  w0 : Nat := 0
  w1 : Nat := 0
  entries : Nat := 0
  w3 : Nat := 0
deriving DecidableEq, Repr

def KvTab.layers (t : KvTab) : Nat := bits t.w0 39 30 + 1
def KvTab.heads (t : KvTab) : Nat := bits t.w0 29 22 + 1
def KvTab.d (t : KvTab) : Nat := bits t.w0 21 13
def KvTab.fmtCode (t : KvTab) : Nat := bits t.w0 12 9
def KvTab.fmt (t : KvTab) : Fmt := (Fmt.ofCode t.fmtCode).getD .bf16
def KvTab.tailCode (t : KvTab) : Nat := if t.w0.testBit 8 then 2 else 3
def KvTab.tail (t : KvTab) : Fmt := if t.w0.testBit 8 then .fp16 else .bf16
def KvTab.int (t : KvTab) : Bool := decide (t.fmtCode < 2)
def KvTab.ring (t : KvTab) : Bool := t.w0.testBit 7
def KvTab.pagePool (t : KvTab) : Nat := bits t.w0 6 5
def KvTab.tailPool (t : KvTab) : Nat := bits t.w0 4 3
def KvTab.export_ (t : KvTab) : Bool := t.w0.testBit 2
def KvTab.pages (t : KvTab) : Nat := bits t.w1 63 48 + 1
def KvTab.window (t : KvTab) : Nat := bits t.w1 47 28
def KvTab.recomp (t : KvTab) : Bool := t.w3.testBit 46
def KvTab.dropPg1 (t : KvTab) : Nat := bits t.w3 63 47

/-- R173, R174, R176, R188: whether every header field is in its range. -/
def KvTab.ok (t : KvTab) : Bool :=
  decide (t.d % 16 = 0) && decide (16 ≤ t.d) && decide (t.d ≤ 256) && decide (t.fmtCode < 4)
    && (t.int || decide (t.fmtCode = t.tailCode)) && decide (t.addr % 64 = 0) && decide (t.entries % 64 = 0)
    && (!t.ring || decide (ceilDiv t.window 16 + 1 ≤ t.pages))

/-- A control reader's reading of a header: state, header and code (DESCRIPTOR for a field out of range). -/
def State.kvTab (s : State) (ward addr : Nat) : State × KvTab × Nat :=
  let (s, bs, code) := s.vread ward addr 64
  let t : KvTab := { ward := ward, addr := addr, w0 := wordAt bs 0, w1 := wordAt bs 1, entries := wordAt bs 2, w3 := wordAt bs 3 }
  (s, t, firstCode [code, failIf (!t.ok) cDescriptor])

/-- Address of the entry of page j of stream (l, h, k) (R177). -/
def KvTab.entry (t : KvTab) (l h k j : Nat) : Nat :=
  t.entries + 16 * (((l * t.heads + h) * 2 + k) * t.pages + (if t.ring then j % t.pages else j))

/-- Number of entries of a table. -/
def KvTab.count (t : KvTab) : Nat := t.layers * t.heads * 2 * t.pages

/-- Page states (Table 7.10). -/
def pFree : Nat := 0
def pFilling : Nat := 1
def pFull : Nat := 2
def pExporting : Nat := 3
def pExported : Nat := 4
def pDropped : Nat := 5

/-- A page-table entry (Table 7.3); PEND is PCOUNT ≠ 0. -/
structure KvEnt where
  state : Nat := 0
  xd : Bool := false
  fill : Nat := 0
  fmtCode : Nat := 0
  refs : Nat := 0
  dmg : Bool := false
  pcount : Nat := 0
  scale : Nat := 0
  lastStep : Nat := 0
  frame : Nat := 0
  pageNo : Nat := 0
deriving DecidableEq, Repr

def KvEnt.pend (e : KvEnt) : Bool := decide (e.pcount ≠ 0)

/-- The entry that two words spell. -/
def KvEnt.ofWords (x y : Nat) : KvEnt :=
  { state := bits x 63 61, xd := x.testBit 59, fill := bits x 58 54, fmtCode := bits x 53 50, refs := bits x 49 38,
    dmg := x.testBit 37, pcount := bits x 36 34, scale := bits x 33 18, lastStep := bits x 17 2,
    frame := bits y 63 19 * 64, pageNo := bits y 18 3 }

/-- Its first word. -/
def KvEnt.word0 (e : KvEnt) : Nat :=
  e.state % 8 * 2 ^ 61 + (if e.pend then 2 ^ 60 else 0) + (if e.xd then 2 ^ 59 else 0) + e.fill % 32 * 2 ^ 54 +
  e.fmtCode % 16 * 2 ^ 50 + e.refs % 4096 * 2 ^ 38 + (if e.dmg then 2 ^ 37 else 0) + e.pcount % 8 * 2 ^ 34 +
  e.scale % 65536 * 2 ^ 18 + e.lastStep % 65536 * 4

/-- Its second word. -/
def KvEnt.word1 (e : KvEnt) : Nat := e.frame / 64 % 2 ^ 45 * 2 ^ 19 + e.pageNo % 65536 * 8

/-- The entry at a ward address; its frame as a ward virtual address on this node (Table 7.3). -/
def State.ent (s : State) (w a : Nat) : KvEnt :=
  let e := KvEnt.ofWords (s.vword w a) (s.vword w (a + 8))
  { e with frame := s.frameVa (e.frame / 64) }

/-- The code with which a writer's use of an entry fails (R178, R231): an update is an atomic read-modify-write. -/
def State.entCode (s : State) (w a : Nat) : Nat := s.controlCode w a 16 true

/-- The state with an entry written. -/
def State.setEnt (s : State) (w a : Nat) (e : KvEnt) : State := (s.setVword w a e.word0).setVword w (a + 8) e.word1

/-- Whether a page may be read (Table 7.10). -/
def KvEnt.readable (e : KvEnt) : Bool := decide (1 ≤ e.state) && decide (e.state ≤ 4) && !e.dmg

/-- Whether a page holds a frame. -/
def KvEnt.held (e : KvEnt) : Bool := decide (1 ≤ e.state) && decide (e.state ≤ 4)

/-- The pool of the frame that an entry holds (R174, Table 7.2). -/
def KvTab.poolOf (t : KvTab) (e : KvEnt) : Nat := if e.fmtCode = t.fmtCode then t.pagePool else t.tailPool

/-- The low 16 bits of the step count. -/
def State.step16 (s : State) : Nat := s.rd .clkStepStat_STEP_COUNT % 2 ^ 16

/-- A table named by an instruction in this step (R194). -/
def State.nameTable (s : State) (w table : Nat) : State :=
  s.modWard w fun x => { x with stepTables := if table ∈ x.stepTables then x.stepTables else table :: x.stepTables,
                                tables := if table ∈ x.tables then x.tables else table :: x.tables }

/-! ### Pressure (R194, R195) -/

/-- Insertion into a list ordered by lt. -/
def insertBy {α : Type} (lt : α → α → Bool) (x : α) : List α → List α
  | [] => [x]
  | y :: ys => if lt x y then x :: y :: ys else y :: insertBy lt x ys

/-- A list in the order of lt, equal elements in their own order. -/
def sortBy {α : Type} (lt : α → α → Bool) (l : List α) : List α := l.foldr (insertBy lt) []

/-- The tables that an instruction of a ward waiting in a queue names (R194): a SCATTER or PAGE.TRUNC, or an ATTN whose
walk is validated. -/
def State.waitingTables (s : State) (w : Nat) : List Nat :=
  s.cores.flatMap fun k =>
    (match k.tile, k.wait with
    | some t, some (.scatter a) => if t.ward = w then [a] else []
    | some t, some (.trunc a) => if t.ward = w then [a] else []
    | _, _ => []) ++ (if k.walked.isSome then (k.refs.filter fun r => r.ward = w).map (·.table) else [])

/-- A candidate of R194: class, age, table, entry index. -/
structure Candidate where
  cls : Nat := 0
  age : Nat := 0
  table : Nat := 0
  index : Nat := 0
deriving DecidableEq, Repr

/-- The order in which candidates are taken. -/
def Candidate.lt (a b : Candidate) : Bool :=
  decide (a.cls < b.cls) || (decide (a.cls = b.cls) && (decide (b.age < a.age) || (decide (a.age = b.age) &&
    (decide (a.table < b.table) || (decide (a.table = b.table) && decide (a.index < b.index))))))

/-- The candidates of a pool of a ward, in order; control words that fail their reader give none (R231). -/
def State.candidates (s : State) (w pool : Nat) : List Candidate :=
  match s.ward w with
  | none => []
  | some x =>
    let busy := x.stepTables ++ s.waitingTables w
    let only1 := decide (s.rd .kvpWardCfg_DROP_CLASS w = 1)
    sortBy Candidate.lt (x.tables.flatMap fun a =>
      let (_, t, code) := s.kvTab w a
      if t.recomp || decide (code ≠ 0) then [] else
      (List.range t.count).filterMap fun i =>
        let e := s.ent w (t.entries + 16 * i)
        if s.entCode w (t.entries + 16 * i) ≠ 0 then none else
        let cls := if e.state = pExported then 1 else if e.state = pFull ∨ e.state = pFilling then 2 else 0
        if cls = 0 ∨ e.refs ≠ 0 ∨ e.pend ∨ t.poolOf e ≠ pool ∨ (cls = 2 ∧ (only1 ∨ a ∈ busy)) then none
        else some { cls := cls, age := (s.step16 + 2 ^ 16 - e.lastStep) % 2 ^ 16, table := a, index := i })

/-- R194: pages dropped until RESERVE + 64 frames are free or no candidate remains. -/
def State.relieve (s : State) (w pool : Nat) : State :=
  let reserve := bits (s.vword w (s.poolAddr w pool)) 39 16
  if s.flag .kvpWardCfg_DROP_EN w && decide (s.poolFree w pool < reserve) then
    (s.candidates w pool).foldl (fun s c =>
      if s.poolFree w pool ≥ reserve + 64 then s
      else s.dropEntry w c.table ((s.kvTab w c.table).2.1.entries + 16 * c.index)) s
  else s

/-- A frame taken from a pool (R179): none where no frame is free; with the code of damaged control words. -/
def State.takeFrame (s : State) (w pool : Nat) : State × Option Nat × Nat := State.poolPop (s.poolFree w pool + 1) s w pool

/-- Bytes of a frame of a pool. -/
def State.frameSize (s : State) (w pool : Nat) : Nat := 1024 * 2 ^ bits (s.vword w (s.poolAddr w pool)) 1 0

/-- R180: whether the pools' frames are too small for a table. -/
def State.poolsSmall (s : State) (t : KvTab) : Bool :=
  decide (s.frameSize t.ward t.pagePool < 16 * t.d * t.fmt.bits / 8)
    || (t.int && decide (s.frameSize t.ward t.tailPool < 32 * t.d))

/-! ### Pages -/

/-- The codes of slots [i0, i0 + n) of a page whose content has a format, as a reader gets them: state, codes and
code of a failure. -/
def State.readSlots (s : State) (t : KvTab) (frame : Nat) (f : Fmt) (i0 n : Nat) : State × List Nat × Nat :=
  let b := f.bits
  let (s, bs, code) := s.vread t.ward (frame + i0 * t.d * b / 8) (n * t.d * b / 8)
  (s, (List.range (n * t.d)).map fun i =>
    if b = 4 then (bs.getD (i / 2) 0).toNat / 16 ^ (i % 2) % 16 else ofBytes ((bs.drop (i * (b / 8))).take (b / 8)), code)

/-- Element codes as bytes, lowest first. -/
def pageBytes (f : Fmt) (codes : List Nat) : List Byte :=
  if f.bits = 4 then (List.range (ceilDiv codes.length 2)).map fun i =>
    BitVec.ofNat 8 (codes.getD (2 * i) 0 % 16 + 16 * (codes.getD (2 * i + 1) 0 % 16))
  else codes.flatMap (bytesOf (f.bits / 8))

/-- Slots written from slot i0 on. -/
def State.writeSlots (s : State) (t : KvTab) (frame : Nat) (f : Fmt) (i0 : Nat) (codes : List Nat) : State :=
  s.vwrite t.ward (frame + i0 * t.d * f.bits / 8) (pageBytes f codes)

/-- E_l of an active binding, for the fill last exported of page j (R210). -/
def State.exportedFill (s : State) (ward table l j : Nat) : Nat :=
  let bs := s.exporter.bindings.filter fun b => decide (b.ward = ward) && decide (b.table = table) && !b.ended
  bs.foldl (fun a b =>
    if s.controlCode ward ((b.stateArea + 4 * l) / 8 * 8) 8 false ≠ 0 then a else
    let e := s.vword ward ((b.stateArea + 4 * l) / 8 * 8) / (if l % 2 = 0 then 1 else 2 ^ 32) % 2 ^ 21
    max a (min 16 (e - 16 * j))) 0

/-- What R183 and R184 make of the rows for one page. -/
inductive PageFate where
  | skip
  | fault (code : Nat)
  | wait
  | ready
deriving DecidableEq, Repr

/-- The rows of one page: page number, first and last slot among the rows, and where slot 0 lies among them. -/
structure PageRows where
  j : Nat := 0
  lo : Nat := 0
  hi : Nat := 0
deriving DecidableEq, Repr

/-- The slots of page j that rows of positions [pos0, pos0 + n) give. -/
def pageRows (pos0 n j : Nat) : PageRows := { j := j, lo := pos0 - 16 * j, hi := min 15 (pos0 + n - 1 - 16 * j) }

/-- Whether the entry holds an older page of a ring (R188). -/
def KvTab.older (t : KvTab) (e : KvEnt) (j : Nat) : Bool := t.ring && e.held && decide (e.pageNo < j)

/-- The fill that counts for page j. -/
def KvTab.fillFor (t : KvTab) (e : KvEnt) (j : Nat) : Nat := if t.older e j || !e.held then 0 else e.fill

/-- R183, R184, R188: what may happen to the rows of a page now, frames apart. `own` is how many of the entry's pending
buffers are the SCATTER's own, 0 for a KVA: R188's PEND = 0 bars a SCATTER where other buffers wait (log entry 127). -/
def KvTab.fate (t : KvTab) (e : KvEnt) (r : PageRows) (own : Nat) : PageFate :=
  let scatter := decide (own ≠ 0)
  let fill := t.fillFor e r.j
  let seals := t.int && decide (r.hi = 15)
  if t.ring && decide (e.state ≠ pFree) && decide (e.pageNo > r.j) then .skip
  else if r.hi < fill then .skip
  else if !scatter && e.pend then .wait
  else if max r.lo fill > fill then (if scatter then .wait else .fault cDescriptor)
  else if e.state = pExporting then .wait
  else if t.older e r.j then
    if e.refs = 0 && decide (e.pcount ≤ own) && (decide (e.state = pExported) || !t.export_) then .ready else .wait
  else if seals && decide (e.refs ≠ 0) then .wait
  else .ready

/-- What applying a page's rows gives: the state, whether it was done, the quantisation flags, a fault code. -/
structure Applied where
  s : State
  done : Bool := false
  flags : Nat := 0
  code : Nat := 0

/-- R183, R188, Table 7.11: the rows of a page written where a frame is there; `codes` are those of its slots from
max(lo, fill) to hi in the tail format. An allocation that leaves its pool short drops pages once the page is written
(R194). -/
def State.applyPage (s : State) (t : KvTab) (a l : Nat) (r : PageRows) (codes : Nat → List Nat) : Applied :=
  let e := s.ent t.ward a
  let old := t.older e r.j
  let fill := t.fillFor e r.j
  let full := decide (r.hi = 15)
  let seals := t.int && full
  let newPool := if t.int && !seals then t.tailPool else t.pagePool
  let newFmt := if t.int && !seals then t.tailCode else t.fmtCode
  let keep := e.held && decide (e.fmtCode = newFmt)
  if !keep && s.poolsSmall t then { s := s, code := cDescriptor } else
  let pushes := e.held && !keep
  let oldCode := if pushes then s.poolCode t.ward (t.poolOf e) false else 0
  let (s1, frame, code) := if keep then (s, some e.frame, 0) else s.takeFrame t.ward newPool
  if firstCode [code, oldCode] ≠ 0 then { s := s, code := firstCode [code, oldCode] } else
  let after (s : State) : State :=
    let s := if pushes then s.poolPush t.ward (t.poolOf e) e.frame else s
    if keep then s else s.relieve t.ward newPool
  match frame with
  | none => { s := s1.relieve t.ward newPool }
  | some f =>
    if (s1.rangeCode t.ward f (16 * t.d * (if seals then t.fmt.bits else 16) / 8) true) ≠ 0 then { s := s, code := cUnmapped } else
    let rows := (List.range (r.hi + 1 - fill)).flatMap fun i => codes (fill + i)
    let xd := e.xd && !old && !(decide (e.state = pDropped) && decide (e.pageNo ≠ r.j))
    let last16 := decide (s.exportedFill t.ward t.addr l r.j = 16)
    let st := if !full then pFilling
      else if xd && !old && ((!e.held && decide (fill = 0)) || (decide (e.state = pFilling) && last16)) then pExported else pFull
    let e' : KvEnt := { e with state := st, xd := xd, fill := r.hi + 1, fmtCode := newFmt, dmg := false, frame := f,
                               lastStep := s.step16, pageNo := r.j, scale := 0 }
    if seals then
      let (s2, before, code) := if fill = 0 then (s1, [], 0) else s1.readSlots t e.frame t.tail 0 fill
      if code ≠ 0 then { s := s, code := code } else
      let vals := (before ++ rows).map fun c => (Num.decode t.tail c).final
      let (sc, cs, fl) := blockCodes t.fmt vals
      { s := after ((s2.writeSlots t f t.fmt 0 cs).setEnt t.ward a { e' with scale := sc }), done := true, flags := fl }
    else { s := after ((s1.writeSlots t f t.tail fill rows).setEnt t.ward a e'), done := true }

/-! ### Truncation (R187) -/

/-- DROP_PG1 of a table computed anew: the lowest dropped page number + 1 (R187, R196). -/
def State.recountDrops (s : State) (t : KvTab) : State :=
  let low := (List.range t.count).foldl (fun (a : Nat) i =>
    let e := s.ent t.ward (t.entries + 16 * i)
    if s.entCode t.ward (t.entries + 16 * i) = 0 ∧ e.state = pDropped ∧ (a = 0 ∨ e.pageNo + 1 < a) then e.pageNo + 1 else a) 0
  s.setVword t.ward (t.addr + 24) (putBits (s.vword t.ward (t.addr + 24)) 63 47 low)

/-- The slots of an entry's page that a truncation at p keeps. -/
def truncKeep (p : Nat) (e : KvEnt) : Nat := min 16 (p - 16 * e.pageNo)

/-- Whether a truncation at p changes an entry. -/
def truncHits (p : Nat) (e : KvEnt) : Bool :=
  (e.held && decide (truncKeep p e < e.fill)) || (decide (e.state = pDropped) && decide (p ≤ 16 * e.pageNo))

/-- One entry truncated at p (R187): state, whether it is done (false where it must wait), and a fault code (R180, R231).
It drops no page for want of a frame. -/
def State.truncEntry (s : State) (t : KvTab) (a p : Nat) : State × Bool × Nat :=
  let e := s.ent t.ward a
  let keep := truncKeep p e
  let code := s.entCode t.ward a
  if code ≠ 0 then (s, false, code)
  else if !truncHits p e then (s, true, 0)
  else if e.refs ≠ 0 ∨ e.state = pExporting then (s, false, 0)
  else if e.state = pDropped then (s.setEnt t.ward a { e with state := pFree, xd := false, fill := 0 }, true, 0)
  else if keep = 0 then
    let free : KvEnt := { e with state := pFree, xd := false, fill := 0, scale := 0, dmg := false }
    let pc := s.poolCode t.ward (t.poolOf e) false
    if pc ≠ 0 then (s, false, pc) else ((s.setEnt t.ward a free).poolPush t.ward (t.poolOf e) e.frame, true, 0)
  else if t.int && decide (e.fmtCode = t.fmtCode) then
    if s.poolsSmall t then (s, false, cDescriptor) else
    match s.takeFrame t.ward t.tailPool with
    | (s1, none, code) => (s1, false, code)
    | (s1, some f, _) =>
      if s1.rangeCode t.ward f (32 * t.d) true ≠ 0 then (s, false, cUnmapped) else
      let (s2, cs, code) := s1.readSlots t e.frame t.fmt 0 keep
      if code ≠ 0 then (s, false, code) else
      let sc := Num.decode .bf16 e.scale
      let out := cs.map fun c => (roundNum t.tail {} ((Num.decode t.fmt c).mul sc).num).1
      let s3 := s2.writeSlots t f t.tail 0 out
      let e' : KvEnt := { e with state := pFilling, fill := keep, fmtCode := t.tailCode, scale := 0, frame := f,
                                 lastStep := s.step16 }
      ((s3.setEnt t.ward a e').poolPush t.ward t.pagePool e.frame, true, 0)
  else (s.setEnt t.ward a { e with state := pFilling, fill := keep }, true, 0)

/-- Every entry truncated at p: the state, whether none must wait, and the code of the entry that stopped it. -/
def State.truncTable (s : State) (t : KvTab) (p : Nat) : State × Bool × Nat :=
  (List.range t.count).foldl (fun (x : State × Bool × Nat) i =>
    if x.2.2 ≠ 0 then x else
    let (s, ok, code) := x.1.truncEntry t (t.entries + 16 * i) p
    (s, x.2.1 && ok, code)) (s, true, 0)

/-! ### Recomputation (R196) -/

/-- RECOMP of a table set or cleared. -/
def State.setRecomp (s : State) (w table : Nat) (b : Bool) : State :=
  s.setVword w (table + 24) (putBits (s.vword w (table + 24)) 46 46 (if b then 1 else 0))

/-- The page table whose page a request waits for, 0 where there is none. -/
def Request.absentTable (x : Request) : Nat := (x.absents.headD {}).table

/-- Whether a task of a request has a fault that no recomputation resolves (R54, R196). -/
def Request.failed (x : Request) : Bool :=
  (x.tasks.mapIdx fun i y => decide (y.phase = .faulted) && (decide (x.ntask ≤ i) || decide (y.fault ≠ cPageAbsent))).any fun b => b

/-- Whether a request may recompute (R196): it names recompute tasks, the ward allows it, and nothing else has ended it. -/
def State.mayRecompute (s : State) (x : Request) : Bool :=
  decide (x.nrecomp ≠ 0) && s.flag .kvpWardCfg_RECOMP_EN x.ward && !x.failed

/-- R196: a recomputation of a table begins for a request: RECOMP set, the range record written, the recompute tasks
waiting. -/
def State.startRecompute (s : State) (x : Request) (table : Nat) : State :=
  let drop := bits (s.vword x.ward (table + 24)) 63 47
  let rec_ := bytesOf 4 (16 * (drop - 1)) ++ bytesOf 4 (if x.appended then x.lastPos + 1 else 0) ++ bytesOf 4 x.lastLayer ++ bytesOf 4 0
  let s := (s.setRecomp x.ward table true).vwrite x.ward x.rangeRec rec_
  let more (y : Request) : List Task := (List.range y.nrecomp).map fun i => { addr := y.recompAddr + 64 * i }
  (s.modReq x.id fun y => { y with phase := .recomputing,
                                   absents := if y.absents.isEmpty then [{ table := table }] else y.absents,
                                   reported := max 1 y.reported,
                                   tasks := y.tasks.take y.ntask ++ more y }).bump .kvpWardStat_RECOMPUTES x.ward

end Sys2Proof.Machine
end

