-- ==== Sys2Proof/Machine/Rdma.lean ====
section
/-! DEFINITION. Queue pairs and outbound RoCEv2 messages, shared by the host port and the export ports (R326 to R329,
R337). -/
namespace Sys2Proof.Machine

/-- A queue pair. -/
def State.qp (s : State) (n : Nat) : Option Qp := Smap.get none (s.host.qps.map fun p => (p.1, some p.2)) n

/-- The state with a queue pair changed. -/
def State.modQp (s : State) (n : Nat) (f : Qp → Qp) : State :=
  { s with host := { s.host with qps := s.host.qps.map fun p => if p.1 = n then (p.1, f p.2) else p } }

/-- The state with a queue pair put in place. -/
def State.putQp (s : State) (n : Nat) (q : Qp) : State :=
  let rest := s.host.qps.filter fun p => p.1 ≠ n
  { s with host := { s.host with qps := (rest.filter fun p => p.1 < n) ++ [(n, q)] ++ rest.filter fun p => p.1 > n } }

/-- Path MTU in bytes (Table 13.1). -/
def mtuBytes (m : Nat) : Nat := 1024 * 2 ^ m

/-- Packets of a message: one at least. -/
def RdmaOut.packets (m : RdmaOut) (mtu : Nat) : Nat := max 1 (ceilDiv (max m.len m.data.length) (mtuBytes mtu))

/-- Whether a port's link is up. -/
def State.linkUp (s : State) (unit : Nat) : Bool := s.fclk && decide (s.rd .hostPortStat_LINK unit = 2)

/-- Whether a port sends now: its link is up (R337) and its priority not paused (R334). -/
def State.sends (s : State) (unit : Nat) : Bool := s.linkUp unit && decide (Smap.get 0 s.host.paused unit = 0)

/-- A message posted on a queue pair in RTS: it takes its PSNs, goes on the wire, or waits where its port does not send or
others wait, and stays until acknowledged. -/
def State.post (s : State) (n : Nat) (m : RdmaOut) : State :=
  match s.qp n with
  | none => s
  | some q =>
    if q.state ≠ .rts then s else
    let m := { m with psn := q.sendPsn }
    let goes := s.sends q.port && decide (q.unsent = 0)
    let s := s.modQp n fun q => { q with sendPsn := (q.sendPsn + m.packets q.mtu) % 2 ^ 24, unacked := q.unacked ++ [m],
                                         unsent := if goes then 0 else q.unsent + 1 }
    if goes then { s with host := { s.host with out := s.host.out ++ [(n, m)] } } else s

/-- Every unacknowledged message of a queue pair sent again (R225, R337); a port that does not send holds them. -/
def State.resend (s : State) (n : Nat) : State :=
  match s.qp n with
  | none => s
  | some q =>
    if s.sends q.port then
      let s := s.modQp n fun q => { q with unsent := 0 }
      { s with host := { s.host with out := s.host.out ++ q.unacked.map fun m => (n, m) } }
    else s

/-- The messages of a queue pair that are on their way. -/
def Qp.onWay (q : Qp) : List RdmaOut := q.unacked.take (q.unacked.length - q.unsent)

/-- The messages of a queue pair that wait for its port. -/
def Qp.waits (q : Qp) : List RdmaOut := q.unacked.drop (q.unacked.length - q.unsent)

/-- The first message of a queue pair on its way that satisfies a test is acknowledged. -/
def State.acked (s : State) (n : Nat) (f : RdmaOut → Bool) : State :=
  s.modQp n fun q => { q with unacked := q.onWay.eraseP f ++ q.waits, retries := 0 }

/-- What waited for a port goes on the wire once it sends again (R334, R337): messages and answers. -/
def State.flushPort (s : State) (unit : Nat) : State :=
  if s.sends unit = false then s else
  let mine (n : Nat) : Bool := decide ((s.qp n).map (·.port) = some unit)
  let out := (s.host.qps.filter fun p => decide (p.2.port = unit)).flatMap fun p => p.2.waits.map fun m => (p.1, m)
  let sent (p : Nat × Qp) : Nat × Qp := if p.2.port = unit then (p.1, { p.2 with unsent := 0 }) else p
  { s with host := { s.host with qps := s.host.qps.map sent, out := s.host.out ++ out,
                                 replies := s.host.replies ++ s.host.heldReplies.filter (fun r => mine r.1),
                                 heldReplies := s.host.heldReplies.filter fun r => !mine r.1 } }

/-- Number of the Ethernet port unit: 0 host, 1 to 4 E0 to E3. Export port n is unit n + 1. -/
def exportUnit (n : Nat) : Nat := n + 1

end Sys2Proof.Machine
end

