-- ==== Sys2Proof/Machine/Export.lean ====
section
/-! DEFINITION. The export engine (08_kv_export.md): keyways, bindings, grants, delivery of layers, markers, and the
failure of bindings and partners. -/
namespace Sys2Proof.Machine

/-! ### Keyways (R203 to R206) -/

/-- A keyway in force for a table: the layout of Table 8.6 with the preset's values. -/
structure Keyway where
  t : Nat := 8
  efmt : Fmt := .bf16
  marker : Nat := 0
  immLayout : Bool := false
  dimMajor : Bool := false
  hil : Bool := false
  inlineScale : Bool := false
  layerStride : Nat := 0
  kvStride : Nat := 0
  headStride : Nat := 0
  slotStride : Nat := 0
  scaleOff : Nat := 0
deriving DecidableEq, Repr

/-- The keyway that words spell, for H heads of D elements (R204, Table 8.7). -/
def Keyway.of (ws : List Word) (h d : Nat) : Keyway :=
  let w (n : Nat) : Nat := (ws.getD n 0).toNat
  let preset := bits (w 0) 63 60
  let t := 8 * 2 ^ bits (w 0) 59 58
  let f := (Fmt.ofCode (bits (w 0) 57 54)).getD .bf16
  let e := d * f.bits / 8
  let dense := roundUp (2 * h * t * e + (if f.isInt then 4 * h * t else 0)) 64
  let ls := if w 1 = 0 then dense else w 1
  let base : Keyway := { t := t, efmt := f, marker := bits (w 0) 53 52, immLayout := (w 0).testBit 51, layerStride := ls }
  if preset = 0 then
    { base with dimMajor := (w 0).testBit 50, hil := (w 0).testBit 49, inlineScale := (w 0).testBit 48,
                kvStride := bits (w 2) 63 32, headStride := bits (w 2) 31 0, slotStride := bits (w 3) 63 32,
                scaleOff := bits (w 3) 31 0 }
  else
    { base with dimMajor := decide (preset = 3), hil := decide (preset = 2), headStride := if preset = 2 then 0 else t * e,
                slotStride := if preset = 2 then h * e else 0, kvStride := h * t * e,
                scaleOff := if f.isInt then 2 * h * t * e else 0 }

/-- R203 to R205: whether a keyway may be loaded: reserved codes and bits 0, a preset's expert fields 0, a custom
keyway's rules kept. -/
def keywayOk (ws : List Word) : Bool :=
  let w (n : Nat) : Nat := (ws.getD n 0).toNat
  let preset := bits (w 0) 63 60
  decide (preset < 4) && decide (bits (w 0) 57 54 < 5) && decide (bits (w 0) 53 52 < 3) && decide (bits (w 0) 47 0 = 0)
    && [4, 5, 6, 7].all (fun n => decide (w n = 0))
    && (if preset = 0 then
          decide (w 1 % 64 = 0) && decide (bits (w 2) 63 32 % 64 = 0) && decide (bits (w 3) 31 0 % 64 = 0) && decide (bits (w 2) 31 0 % 8 = 0)
            && decide (bits (w 3) 63 32 % 8 = 0) && !((w 0).testBit 48 && (w 0).testBit 50)
            && !((w 0).testBit 50 && (w 0).testBit 49)
        else decide (bits (w 0) 50 48 = 0) && decide (w 2 = 0) && decide (w 3 = 0))

/-- Bytes of an element run at index i, in half bytes for INT4. -/
def Keyway.eb (k : Keyway) : Nat := k.efmt.bits

/-- Nibble address of element d of slot i of head h, kind kd, layer l in the block at dest (R206): twice the byte
address, so that INT4 pairs have a place. -/
def Keyway.elemNib (k : Keyway) (dest l kd h d i dim : Nat) : Nat :=
  let e := dim * k.eb / 8
  let e2 := if k.inlineScale then e + 2 else e
  let x := dest + l * k.layerStride + kd * k.kvStride + (if k.hil then 0 else h * k.headStride)
  let row := if k.hil then x + i * k.slotStride + h * e2 else x + i * e2
  if k.dimMajor then 2 * x + (d * k.t + i) * k.eb / 4 else 2 * row + d * k.eb / 4

/-- Byte address of a scale (R206). -/
def Keyway.scaleAddr (k : Keyway) (dest l kd h i dim heads : Nat) : Nat :=
  let e := dim * k.eb / 8
  if k.inlineScale then
    let x := dest + l * k.layerStride + kd * k.kvStride
    (if k.hil then x + i * k.slotStride + h * (e + 2) else x + h * k.headStride + i * (e + 2)) + e
  else dest + l * k.layerStride + k.scaleOff + ((kd * heads + h) * k.t + i) * 2

/-! ### Bindings -/

/-- The state with a binding changed. -/
def State.modBinding (s : State) (b : Nat) (f : Binding → Binding) : State :=
  { s with exporter := { s.exporter with bindings := s.exporter.bindings.map fun x => if x.id = b then f x else x } }

/-- A binding by its number. -/
def State.binding (s : State) (b : Nat) : Option Binding := s.exporter.bindings.find? fun x => x.id = b

/-- Whether a binding still delivers. -/
def Binding.live (b : Binding) : Bool := !b.ended && decide (b.failed = 0)

/-- Address of E_l (R210). -/
def Binding.highWater (b : Binding) (l : Nat) : Nat := b.stateArea + 4 * l

/-- E_l. -/
def State.eL (s : State) (b : Binding) (l : Nat) : Nat :=
  match s.home b.ward (b.highWater l) with
  | some a => s.peekN a 4 % 2 ^ 21
  | none => 0

/-- The state with E_l written. -/
def State.setEL (s : State) (b : Binding) (l v : Nat) : State := s.vwrite b.ward (b.highWater l) (bytesOf 4 v)

/-- Address of grant-table entry n (R210). -/
def Binding.grantAddr (b : Binding) (layers n : Nat) : Nat := b.stateArea + roundUp (layers * 4) 64 + 16 * n

/-- The code with which the engine's use of a binding's control words fails (R231, log entry 151): the header of its
table, its E_l words, and the entries of the pages below a target. -/
def State.exportCode (s : State) (b : Binding) (target : Nat) : Nat :=
  let (_, t, tc) := s.kvTab b.ward b.table
  let hw := (List.range t.layers).map fun l => s.controlCode b.ward (b.highWater l) 4 true
  let ents := (List.range t.layers).flatMap fun l => (List.range t.heads).flatMap fun h => [0, 1].flatMap fun k =>
    (List.range (ceilDiv target 16)).map fun j => s.entCode b.ward (t.entry l h k j)
  firstCode (tc :: (if tc ≠ 0 then [] else hw ++ ents))

/-- The code with which the engine's use of a grant-table entry fails (R231). -/
def State.grantCode (s : State) (b : Binding) (layers n : Nat) : Nat := s.controlCode b.ward (b.grantAddr layers n) 16 true

/-- The grant of a token block: DEST and RKEY, none where none is filed. -/
def State.grant (s : State) (b : Binding) (layers n : Nat) : Option (Nat × Nat) :=
  let a := b.grantAddr layers n
  let d := s.vword b.ward a
  if d.testBit 0 then some (d - 1, s.vword b.ward (a + 8) / 2 ^ 32) else none

/-- The header of a binding's table. -/
def State.tabOf (s : State) (b : Binding) : KvTab := (s.kvTab b.ward b.table).2.1

/-- The keyway of a binding's partner. -/
def State.keywayOf (s : State) (b : Binding) : Keyway :=
  let t := s.tabOf b
  Keyway.of (Smap.get [] s.exporter.keyways (s.rd .expPartnerCfg_KEYWAY b.partner)) t.heads t.d

/-- Ports of a partner in ascending order, and the queue pair of each (R201). -/
def State.partnerQps (s : State) (p : Nat) : List (Nat × Nat) :=
  let mask := s.rd .expPartnerCfg_PORT_MASK p
  ((List.range 4).filter mask.testBit).mapIdx fun i port => (port, s.rd .expPartnerCfg_QP_BASE p + i)

/-- Those of its queue pairs that are in RTS. -/
def State.partnerRts (s : State) (p : Nat) : List Nat :=
  (s.partnerQps p).filterMap fun x => if (s.qp x.2).map (·.state) = some .rts then some x.2 else none

/-- Whether a partner is active. -/
def State.partnerActive (s : State) (p : Nat) : Bool := decide (s.rd .expPartnerStat_STATE p = 1)

/-! ### Delivery (R216 to R219) -/

/-- How many slots of the page that an entry holds have been written (R216): of a DROPPED page those it held. -/
def State.slotsWritten (s : State) (w a : Nat) (e : KvEnt) : Nat :=
  if e.state = pDropped then Smap.get 0 s.exporter.dropped (w * 2 ^ 64 + a) else if e.held then e.fill else 0

/-- R216: whether layer l of a binding is complete for a target. -/
def State.layerComplete (s : State) (t : KvTab) (l target : Nat) : Bool :=
  (List.range t.heads).all fun h => [0, 1].all fun k => (List.range (ceilDiv target 16)).all fun j =>
    let a := t.entry l h k j
    let e := s.ent t.ward a
    if t.ring && decide (e.pageNo > j) then true
    else !e.pend && decide (e.pageNo = j) && decide (min 16 (target - 16 * j) ≤ s.slotsWritten t.ward a e)

/-- The sticky conversion flags of a partner (R207). -/
def State.cvtFlags (s : State) (p fl : Nat) : State :=
  let s := if fl.testBit 0 then s.wr .expPartnerStat_CVT_INVALID p 1 else s
  let s := if fl.testBit 2 then s.wr .expPartnerStat_CVT_OVERFLOW p 1 else s
  if fl.testBit 3 then s.wr .expPartnerStat_CVT_UNDERFLOW p 1 else s

/-- One slot converted (R207): element codes, the scale of an integer format, and the flags. -/
def convertSlot (f : Fmt) (xs : List Num) : List Nat × Option Nat × Nat :=
  if f.isInt then let (sc, cs, fl) := blockCodes f (xs.map Num.final); (cs, some sc, fl)
  else xs.foldl (fun (a : List Nat × Option Nat × Nat) x =>
    let (c, fl) := roundNum f {} x
    (a.1 ++ [c], none, a.2.2 ||| fl)) ([], none, 0)

/-- Nibbles placed at nibble addresses, gathered into maximal runs of contiguous bytes (R218); both nibbles of a byte
are always among them. -/
def byteRuns (bs : List (Nat × Byte)) : List (Nat × List Byte) :=
  (sortBy (fun x y => decide (x.1 < y.1)) bs).foldr (fun x rs =>
    match rs with
    | (a, l) :: rest => if a = x.1 + 1 then (x.1, x.2 :: l) :: rest else (x.1, [x.2]) :: rs
    | [] => [(x.1, [x.2])]) []

/-- The destination bytes of a slot's scale, where its format has one. -/
def scaleBytes (k : Keyway) (dest l kd h i dim heads : Nat) : Option Nat → List (Nat × Byte)
  | some v => (bytesOf 2 v).mapIdx fun n b => (k.scaleAddr dest l kd h i dim heads + n, b)
  | none => []

/-- The destination bytes of one slot of a page (R206, R207). -/
def slotBytesAt (k : Keyway) (dest l kd h i dim heads : Nat) (codes : List Nat) (scale : Option Nat) : List (Nat × Byte) :=
  let sc := scaleBytes k dest l kd h i dim heads scale
  let es := if k.eb = 4 then
      (List.range (dim / 2)).map fun n =>
        (k.elemNib dest l kd h (2 * n) i dim / 2, BitVec.ofNat 8 (codes.getD (2 * n) 0 % 16 + 16 * (codes.getD (2 * n + 1) 0 % 16)))
    else (List.range dim).flatMap fun d =>
      (bytesOf (k.eb / 8) (codes.getD d 0)).mapIdx fun n b => (k.elemNib dest l kd h d i dim / 2 + n, b)
  es ++ sc

/-- The destination bytes of INT4 in dimension-major order, where a byte holds two slots of one dimension. -/
def dimPairBytes (k : Keyway) (dest l kd h i0 dim : Nat) (lo hi : List Nat) : List (Nat × Byte) :=
  (List.range dim).map fun d =>
    (k.elemNib dest l kd h d i0 dim / 2, BitVec.ofNat 8 (lo.getD d 0 % 16 + 16 * (hi.getD d 0 % 16)))

/-- The values that slots [from, to) of a page hold (R207): state, operands slot by slot, and the code of damage. -/
def State.pageVals (s : State) (t : KvTab) (e : KvEnt) (lo hi : Nat) : State × List (List Num) × Nat :=
  let f := (Fmt.ofCode e.fmtCode).getD .bf16
  let (s, cs, code) := s.readSlots t e.frame f lo (hi - lo)
  let val (c : Nat) : Num :=
    if f.isInt then ((Num.decode f c).mul (Num.decode .bf16 e.scale)).num else Num.decode f c
  (s, (List.range (hi - lo)).map fun i => ((cs.drop (i * t.d)).take t.d).map val, code)

/-- R218: one page taken: EXPORTING, converted and written as RDMA WRITEs on one queue pair; a damaged page is
marked instead, and dropped where nothing refers to it (Table 7.11). In dimension-major INT4 a byte holds two slots:
where the first slot is odd, the byte that it shares carries the announced slot's code again (R221), and the nibble of
a slot not yet there is free (log entry 2). -/
def State.takePage (s : State) (b : Binding) (t : KvTab) (l h kd j : Nat) : State :=
  let a := t.entry l h kd j
  let e := s.ent t.ward a
  let kw := s.keywayOf b
  let pairs := decide (kw.eb = 4) && kw.dimMajor
  let first := max (s.eL b l) (16 * j)
  let from_ := if pairs then first / 2 * 2 else first
  let lo := from_ - 16 * j
  let (s, vals, code) := s.pageVals t e lo e.fill
  if code ≠ 0 then
    let s := s.setEnt t.ward a { e with state := pExporting, dmg := true }
    if e.refs = 0 then s.dropEntry t.ward t.addr a
    else s.modBinding b.id fun x => { x with taken := x.taken ++ [(a - t.entries) / 16] }
  else
    let (s, x) := s.free
    let filler := List.replicate t.d (x.toNat % 16)
    let conv := vals.map (convertSlot kw.efmt)
    let s := s.cvtFlags b.partner ((conv.drop (first - from_)).foldl (fun x c => x ||| c.2.2) 0)
    let slot (n : Nat) : Nat × Nat × Nat × Nat :=
      let pos := from_ + n
      let g := (s.grant b t.layers (pos / kw.t)).getD (0, 0)
      (pos / kw.t, pos % kw.t, g.1, g.2)
    let blocks := ((List.range vals.length).map fun n => (slot n).1).eraseDups
    let idx := (a - t.entries) / 16
    let qps := s.partnerRts b.partner
    let q := qps.getD (idx % max 1 qps.length) 0
    let s := s.setEnt t.ward a { e with state := pExporting }
    let s := s.modBinding b.id fun x => { x with taken := x.taken ++ [idx] }
    blocks.foldl (fun s blk =>
      let mine := (List.range vals.length).filter fun n => (slot n).1 = blk
      let (_, _, dest, rkey) := slot (mine.getD 0 0)
      let bytes := mine.flatMap fun n =>
        let (cs, sc, _) := conv.getD n ([], none, 0)
        let i := (slot n).2.1
        if pairs then
          let sc := if from_ + n < first then none else sc
          (if i % 2 = 0 then dimPairBytes kw dest l kd h i t.d cs ((conv.getD (n + 1) (filler, none, 0)).1) else []) ++
            scaleBytes kw dest l kd h i t.d t.heads sc
        else slotBytesAt kw dest l kd h i t.d t.heads cs sc
      (byteRuns bytes).foldl (fun s run =>
        s.post q { kind := 0, addr := run.1, rkey := rkey, data := run.2, len := run.2.length, tag := 2, binding := b.id, page := idx }) s) s

/-- Whether the grants of every block that holds slots of page j from position p on are filed, and the code with which
reading them fails (R231). -/
def State.granted (s : State) (b : Binding) (t : KvTab) (tok p hi : Nat) : Bool × Nat :=
  let blocks := ((List.range (hi - p)).map fun i => (p + i) / tok).eraseDups
  (blocks.all fun n => (s.grant b t.layers n).isSome, firstCode (blocks.map fun n => s.grantCode b t.layers n))

/-- The count of a partner's active bindings. -/
def State.countBindings (s : State) (p : Nat) : State :=
  s.wr .expPartnerStat_BINDINGS p (s.exporter.bindings.filter fun b => decide (b.partner = p) && b.live).length

/-- The unacknowledged messages of every queue pair that satisfy a test are kept, the others taken off. -/
def State.keepMessages (s : State) (f : RdmaOut → Bool) : State :=
  let one (q : Nat × Qp) : Nat × Qp := (q.1, { q.2 with unacked := q.2.unacked.filter f, unsent := (q.2.waits.filter f).length })
  { s with host := { s.host with qps := s.host.qps.map one } }

/-- Messages of a binding taken off every queue pair. -/
def State.dropMessages (s : State) (b : Nat) : State :=
  s.keepMessages fun m => !(decide (m.binding = b) && (decide (m.tag = 2) || decide (m.tag = 3)))

/-- R226: a binding fails with a code. -/
def State.failBinding (s : State) (bid code : Nat) : State :=
  match s.binding bid with
  | none => s
  | some b =>
    if !b.live then s else
    let t := s.tabOf b
    let s := b.taken.foldl (fun s i =>
      let a := t.entries + 16 * i
      let e := s.ent b.ward a
      if e.state = pExporting ∧ s.entCode b.ward a = 0 then s.setEnt b.ward a { e with state := if e.fill = 16 then pFull else pFilling } else s) s
    let s := s.modBinding bid fun x => { x with failed := code, taken := [], starved := false }
    (s.dropMessages bid).countBindings b.partner

/-- A request of a binding that may recompute (R196, R217). -/
def State.recomputer (s : State) (b : Nat) : Option Request :=
  (s.requests.find? fun x => decide (x.binding = some b) && s.mayRecompute x
    && decide (x.phase = .running))

/-- R217: the pages of a complete layer are taken where they may be; a page without a grant waits; a dropped page
with slots still to send starts a recomputation. -/
def State.takeLayer (s : State) (bid l : Nat) : State :=
  match s.binding bid with
  | none => s
  | some b =>
    let t := s.tabOf b
    let target := b.ends.headD 0
    let tok := (s.keywayOf b).t
    let pages := (List.range t.heads).flatMap fun h => [0, 1].flatMap fun k =>
      (List.range (ceilDiv target 16)).map fun j => (h, k, j)
    pages.foldl (fun s x =>
      let (h, k, j) := x
      let a := t.entry l h k j
      let e := s.ent t.ward a
      let el := s.eL b l
      if e.pageNo ≠ j ∨ (s.binding bid).all (!·.live) then s
      else if (e.state = pFilling ∨ e.state = pFull) ∧ 16 * j + e.fill > el then
        match s.granted b t tok (max el (16 * j)) (16 * j + e.fill) with
        | (true, 0) => s.takePage b t l h k j
        | (false, 0) => s.modBinding bid fun y => { y with starved := true }
        | (_, code) => s.failBinding bid code
      else if e.state = pDropped ∧ 16 * (j + 1) > el then
        match s.recomputer bid with
        | some r => s.startRecompute r b.table
        | none => s
      else s) s

/-- Whether nothing of a complete layer remains to be delivered: every page up to the target is EXPORTED, or lies
below E_l. -/
def State.layerDelivered (s : State) (b : Binding) (t : KvTab) (l target : Nat) : Bool :=
  (List.range t.heads).all fun h => [0, 1].all fun k => (List.range (ceilDiv target 16)).all fun j =>
    let e := s.ent t.ward (t.entry l h k j)
    if t.ring && decide (e.pageNo > j) then true
    else decide (e.pageNo = j) && decide (e.state ≠ pExporting) &&
      (decide (e.state = pExported) && decide (min 16 (target - 16 * j) ≤ e.fill) || decide (min (16 * (j + 1)) target ≤ s.eL b l))

/-- Table 8.10: immediate data. -/
def markerImm (k : Keyway) (l handle : Nat) : Nat :=
  if k.immLayout then handle % 2 ^ 32 else l % 2 ^ 10 * 2 ^ 22 + handle % 2 ^ 22

/-- Table 8.11: the marker record's words. -/
def State.markerRecord (s : State) (b : Binding) (l target : Nat) (last : Bool) : Nat × Nat :=
  (b.handle % 2 ^ 32 * 2 ^ 32 + l % 2 ^ 10 * 2 ^ 22 + (if last then 2 ^ 21 else 0) + target % 2 ^ 20,
   Smap.get 0 s.exporter.consumed b.partner % 2 ^ 32 * 2 ^ 32 + (b.markersSent + 1) % 2 ^ 32)

/-- R219: the marker of the next layer is sent. -/
def State.sendMarker (s : State) (b : Binding) : State :=
  let t := s.tabOf b
  let k := s.keywayOf b
  let l := b.nextLayer
  let target := b.ends.headD 0
  let last := decide (l + 1 = t.layers)
  let (w0, w1) := s.markerRecord b l target last
  let q := (s.partnerRts b.partner).headD 0
  let m : RdmaOut := { addr := b.markerAddr + 16 * l, rkey := b.markerRkey, tag := 3, binding := b.id, page := l, entry := target }
  let s := if k.marker = 0 then
      s.post q { m with kind := 1, data := bytesOf 8 w0 ++ bytesOf 8 w1, len := 16, imm := markerImm k l b.handle }
    else if k.marker = 1 then s.post q { m with kind := 1, imm := markerImm k l b.handle }
    else s.post q { m with kind := 0, data := bytesOf 8 w0, len := 8, imm := w1 }
  s.modBinding b.id fun x => { x with markersSent := x.markersSent + 1, nextLayer := l + 1 }

/-- Markers sent in ascending order as far as their layers are delivered; a target whose markers are all sent gives
way to the next (R220). fuel bounds the markers. -/
def State.sendMarkers : Nat → State → Nat → State
  | 0, s, _ => s
  | n + 1, s, bid =>
    match s.binding bid with
    | none => s
    | some b =>
      if !b.live || b.ends.isEmpty || (s.partnerRts b.partner).isEmpty then s
      else if b.nextLayer ∈ b.delivered then
        let s := s.sendMarker b
        let s := if b.nextLayer + 1 = (s.tabOf b).layers then
            s.modBinding bid fun x => { x with ends := x.ends.drop 1, complete := [], delivered := [], nextLayer := 0 }
          else s
        State.sendMarkers n s bid
      else s

/-- R216 to R219: a binding looked at again: layers that have become complete, their pages taken, layers delivered,
markers sent. -/
def State.serveOnce (s : State) (bid : Nat) : State :=
  match s.binding bid with
  | none => s
  | some b =>
    let target := b.ends.headD 0
    if !b.live || b.ends.isEmpty || !s.partnerActive b.partner then s else
    let code := s.exportCode b target
    if code ≠ 0 then s.failBinding bid code else
    let t := s.tabOf b
    let fresh := (List.range t.layers).filter fun l => !decide (l ∈ b.complete) && s.layerComplete t l target
    let s := s.modBinding bid fun x => { x with complete := x.complete ++ fresh, starved := false }
    let todo := (b.complete ++ fresh).filter fun l => !decide (l ∈ b.delivered)
    let s := todo.foldl (fun s l => s.takeLayer bid l) s
    if (s.binding bid).all (!·.live) then s else
    let done := todo.filter fun l => match s.binding bid with | some b => s.layerDelivered b t l target | none => false
    let s := done.foldl (fun s l => s.setEL b l target) s
    let s := s.modBinding bid fun x => { x with delivered := x.delivered ++ done }
    State.sendMarkers (t.layers + 1) s bid

/-- A binding served for each of its targets in hand. -/
def State.serve (s : State) (bid : Nat) : State :=
  match s.binding bid with
  | none => s
  | some b => (List.range (b.ends.length + 1)).foldl (fun s _ => s.serveOnce bid) s

/-- R216, R217: the bindings of a ward, after a KVA or SCATTER of one of its tables is released: pressure may have
dropped pages of the others. -/
def State.exportCheck (s : State) (w : Nat) : State :=
  (s.exporter.bindings.filter fun b => decide (b.ward = w) && b.live).foldl (fun s b => s.serve b.id) s

/-! ### The end of bindings (R211, R221, R226, R227) -/

/-- R227: a partner is lost with a cause. -/
def State.losePartner (s : State) (p cause : Nat) : State :=
  let s := (s.wr .expPartnerStat_STATE p 2).wr .expPartnerStat_CAUSE p cause
  (s.exporter.bindings.filter fun b => decide (b.partner = p) && b.live).foldl (fun s b => s.failBinding b.id cPartnerLost) s

/-- R211: a binding ends. -/
def State.endBinding (s : State) (bid : Nat) : State :=
  match s.binding bid with
  | none => s
  | some b => (s.modBinding bid fun x => { x with ended := true, taken := [] }).countBindings b.partner

/-- R211, R221: a truncation at p has completed on a table: every E_l falls to p at most; p = 0 ends its bindings. A
target that lies above p is delivered and announced again from its first layer on, once its positions are written
(log entry 152). -/
def State.truncBindings (s : State) (w table p : Nat) : State :=
  (s.exporter.bindings.filter fun b => decide (b.ward = w) && decide (b.table = table) && !b.ended).foldl (fun s b =>
    let code := s.exportCode b 0
    if code ≠ 0 then (if p = 0 then s.endBinding b.id else s.failBinding b.id code) else
    let t := s.tabOf b
    let s := (List.range t.layers).foldl (fun s l => s.setEL b l (min (s.eL b l) p)) s
    if p = 0 then s.endBinding b.id else
    let ends := if b.ends.isEmpty ∧ p < b.targetEnd then [b.targetEnd] else b.ends
    let target := ends.headD 0
    s.modBinding b.id fun x =>
      { x with ends := ends, nextLayer := if p < target then 0 else x.nextLayer, lastAcked := min x.lastAcked p,
               complete := x.complete.filter fun l => s.layerComplete t l target,
               delivered := x.delivered.filter fun l => decide (target ≤ s.eL b l) }) s

/-! ### The commands -/

/-- EXPORT_WRITE_ACKNOWLEDGED (R218): every write of a page of binding b is acknowledged; page is its entry's index in
the table. -/
def execExportWriteAcknowledged (b page : Nat) (s : State) : Out :=
  match s.binding b with
  | none => .next s
  | some x =>
    if !x.live || !decide (page ∈ x.taken) then .next s else
    let t := s.tabOf x
    let a := t.entries + 16 * page
    let e := s.ent x.ward a
    let code := s.entCode x.ward a
    if code ≠ 0 then .next (s.failBinding b code) else if e.dmg then .next s else
    let s := s.keepMessages fun m => !(decide (m.tag = 2) && decide (m.binding = b) && decide (m.page = page))
    let s := if e.state = pExporting then s.setEnt x.ward a { e with state := pExported, xd := true } else s
    .next ((s.modBinding b fun y => { y with taken := y.taken.filter (· ≠ page) }).serve b)

/-- MARKER_ACKNOWLEDGED (R219, R223): the second word follows the first where the keyway asks it; a LAST marker lets
the request's completion follow, and ends a binding that is to be unbound. -/
def execMarkerAcknowledged (b layer : Nat) (s : State) : Out :=
  match s.binding b with
  | none => .next s
  | some x =>
    let mine (m : RdmaOut) : Bool := decide (m.tag = 3) && decide (m.binding = b) && decide (m.page = layer)
    match s.host.qps.find? fun p => p.2.onWay.any mine with
    | none => .next s
    | some (q, p) =>
      let m := (p.onWay.find? mine).getD {}
      let s := s.acked q mine
      if m.kind = 0 ∧ m.len = 8 ∧ m.addr = x.markerAddr + 16 * layer then
        .next (s.post q { m with addr := m.addr + 8, data := bytesOf 8 m.imm, imm := 0 })
      else if layer + 1 = (s.tabOf x).layers then
        let s := s.modBinding b fun y => { y with lastAcked := max y.lastAcked m.entry }
        let s := { s with requests := s.requests.map fun r =>
          if r.binding = some b ∧ r.bindingEnd ≤ m.entry then { r with markerDone := true } else r }
        .next (if x.unbindEnd ≠ 0 ∧ x.unbindEnd ≤ m.entry then s.endBinding b else s)
      else .next s

/-- Base of a partner's inbox slot (R212). -/
def inboxAddr (port slot : Nat) : Nat := inboxBase + port * 2 ^ 24 + slot * 2 ^ 18

/-- One grant filed or discarded (R213, R215); one whose own words are damaged is discarded too (R231, log entry 151). -/
def State.fileGrant (s : State) (p : Nat) (g : List Byte) (damage : Nat) : State :=
  let w := wordAt g
  let bad := s.bump .expPartnerStat_BAD_GRANTS p
  if damage ≠ 0 then bad else
  match s.exporter.bindings.find? fun b => decide (b.partner = p) && b.live && decide (b.handle = w 1 % 2 ^ 32) with
  | none => bad
  | some b =>
    let t := s.tabOf b
    let blk := bits (w 2) 63 46
    let code := s.grantCode b t.layers blk
    if blk ≤ b.grantCap ∧ code ≠ 0 then s.failBinding b.id code
    else if blk > b.grantCap ∨ w 0 % 64 ≠ 0 ∨ bits (w 2) 45 0 ≠ 0 ∨ w 3 ≠ 0 ∨ (s.grant b t.layers blk).isSome then bad
    else s.vwrite b.ward (b.grantAddr t.layers blk) (bytesOf 8 (w 0 + 1) ++ bytesOf 8 (w 1 / 2 ^ 32 * 2 ^ 32))

/-- The partner of an inbox slot. -/
def State.inboxPartner (s : State) (port slot : Nat) : Option Nat :=
  (List.range 256).find? fun p => s.flag .expPartnerCfg_ENABLE p && decide (s.rd .expPartnerCfg_INBOX_PORT p = port)
    && decide (s.rd .expPartnerCfg_INBOX_SLOT p = slot)

/-- The grants up to a tail consumed in ring order (R213); a tail too far ahead loses the partner (R215). -/
def State.takeGrants (s : State) (p port slot tail : Nat) : State :=
  let c := Smap.get 0 s.exporter.consumed p
  let n := (tail + 2 ^ 32 - c % 2 ^ 32) % 2 ^ 32
  if n > 8064 then s.losePartner p 5 else
  let s := (List.range n).foldl (fun s i =>
    let (s, g, damage) := s.read (inboxAddr port slot + 0x1000 + (c + i) % 2 ^ 32 % 8064 * 32) 32
    s.fileGrant p g damage) s
  let s := { s with exporter := { s.exporter with consumed := Smap.put 0 s.exporter.consumed p ((c + n) % 2 ^ 32) } }
  (s.exporter.bindings.filter fun b => decide (b.partner = p) && b.live).foldl (fun s b => s.serve b.id) s

/-- CREDIT_WAIT_EXPIRY (R224): a binding that waits for a grant fails with NO_CREDIT. -/
def execCreditWaitExpiry (b : Nat) (s : State) : Out :=
  match s.binding b with
  | some x => Out.when (x.live && x.starved) s (s.failBinding b cNoCredit)
  | none => .next s

/-- KEYWAY_LOAD (R203): a commit of EXP_KEYWAY_LOAD. The staged word 0 is that of the requester (R443). -/
def State.loadKeyway (s : State) (w0 w1 : Nat) : State :=
  let ward := bits w1 8 0
  let slot := bits w0 5 0
  let (s', bs, code) := s.vread ward (w0 / 64 * 64) 64
  let ws := wordsIn bs
  let used := (List.range 256).any fun p => s.flag .expPartnerCfg_ENABLE p && decide (s.rd .expPartnerCfg_KEYWAY p = slot)
  let custom := decide (bits (ws.getD 0 0).toNat 63 60 = 0)
  if s.wardActive ward = false ∨ code ≠ 0 ∨ used ∨ (custom ∧ s.unlocked = false) ∨ keywayOk ws = false then
    s.wr .expKeywayStat_ERR 0 1
  else { s' with exporter := { s'.exporter with keyways := Smap.put [] s'.exporter.keyways slot ws } }

/-- PARTNER_ENABLE's checks (R202). -/
def State.partnerOk (s : State) (p : Nat) : Bool :=
  let mask := s.rd .expPartnerCfg_PORT_MASK p
  let ports := (List.range 4).filter mask.testBit
  let others := (List.range 256).filter fun q => q ≠ p && s.flag .expPartnerCfg_ENABLE q
  let switched (n : Nat) : Bool := s.flag .expPortCfg_SWITCHED n
  !ports.isEmpty && mask.testBit (s.rd .expPartnerCfg_INBOX_PORT p)
    && !(others.any fun q => decide (s.rd .expPartnerCfg_INBOX_PORT q = s.rd .expPartnerCfg_INBOX_PORT p)
          && decide (s.rd .expPartnerCfg_INBOX_SLOT q = s.rd .expPartnerCfg_INBOX_SLOT p))
    && (ports.all fun n => switched n || !(others.any fun q => (s.rd .expPartnerCfg_PORT_MASK q).testBit n))
    && (decide (ports.length ≤ 1) || ports.all switched)
    && !(Smap.get [] s.exporter.keyways (s.rd .expPartnerCfg_KEYWAY p)).isEmpty
    && (s.partnerQps p).all fun x => decide (x.2 < 16384) && decide ((s.qp x.2).map (·.port) = some (exportUnit x.1))

/-- R202: ENABLE written from 0 to 1. -/
def State.enablePartner (s : State) (p : Nat) : State :=
  let ok := s.partnerOk p
  let s := (s.wr .expPartnerStat_BAD_GRANTS p 0).wr .expPartnerStat_NAK_RETRIES p 0
  let s := ((s.wr .expPartnerStat_CVT_INVALID p 0).wr .expPartnerStat_CVT_OVERFLOW p 0).wr .expPartnerStat_CVT_UNDERFLOW p 0
  if ok then ((s.wr .expPartnerCfg_ENABLE p 1).wr .expPartnerStat_STATE p 1).wr .expPartnerStat_CAUSE p 0
  else (s.wr .expPartnerStat_STATE p 3).wr .expPartnerStat_CAUSE p 1

/-- R227: ENABLE written from 1 to 0. -/
def State.disablePartner (s : State) (p : Nat) : State :=
  (s.losePartner p 7).wr .expPartnerCfg_ENABLE p 0

end Sys2Proof.Machine
end

