-- ==== Sys2Proof/Machine/KvPages.lean ====
section
/-! DEFINITION. The instructions that write KV pages: KVA (R181 to R184), SCATTER (R185), PAGE.TRUNC (R187), and the
recomputation of absent pages (R196). -/
namespace Sys2Proof.Machine

/-! ### The append block and the region -/

/-- Words 0 to 3 of an append block (Table 7.7) or of a scatter-buffer header (Table 7.7a). -/
structure Append where
  w0 : Nat := 0
  w1 : Nat := 0
  w2 : Nat := 0
  w3 : Nat := 0
  rest : Nat := 0
deriving DecidableEq, Repr

def Append.ofBytes (bs : List Byte) : Append :=
  { w0 := wordAt bs 0, w1 := wordAt bs 1, w2 := wordAt bs 2, w3 := wordAt bs 3, rest := Sys2Proof.ofBytes ((bs.drop 32).take 32) }
def Append.layer (a : Append) : Nat := bits a.w1 63 54
def Append.head (a : Append) : Nat := bits a.w1 53 46
def Append.kind (a : Append) : Nat := bits a.w1 45 45
def Append.pos0 (a : Append) : Nat := bits a.w1 44 25
def Append.n (a : Append) : Nat := bits a.w1 24 16 + 1
def Append.rot (a : Append) : Bool := a.w1.testBit 15
def Append.half (a : Append) : Bool := a.w1.testBit 14
def Append.rp (a : Append) (d : Nat) : Nat := if bits a.w1 13 6 = 0 then d / 2 else bits a.w1 13 6
def Append.base (a : Append) : Nat := bits a.w2 63 32

/-- Whether an FP32 code is a finite value greater than 1. -/
def rotBaseOk (x : Nat) : Bool :=
  let b := Num.decode .fp32 x
  decide (b.cls = .fin) && ({ cls := .fin, sig := 1 } : Num).lt b

/-- R177, R181: the conditions of DESCRIPTOR on an append block and its table. -/
def Append.bad (a : Append) (t : KvTab) : Bool :=
  decide (bits a.w1 5 0 ≠ 0) || decide (bits a.w2 31 0 ≠ 0) || decide (a.rest ≠ 0)
    || (a.rot && (decide (a.kind = 1) || decide (a.rp t.d > t.d / 2) || !rotBaseOk a.base))
    || decide (a.layer ≥ t.layers) || decide (a.head ≥ t.heads)
    || (!t.ring && decide (a.pos0 + a.n > 16 * t.pages))

/-- Numbers of the pages that the rows touch. -/
def Append.pages (a : Append) : List Nat :=
  (List.range ((a.pos0 + a.n - 1) / 16 + 1 - a.pos0 / 16)).map fun i => a.pos0 / 16 + i

/-- A row's position within the buffered rows of a page's slot. -/
def Append.slotRow (a : Append) (j slot : Nat) : Nat := 16 * j + slot - a.pos0

/-- A KVA with its program and region. -/
structure KvaPlan where
  tab : KvTab := {}
  app : Append := {}
  lay : Layout := {}
  slotted : Bool := false
  filled : Bool := true
  chain : List Nat := []
  pre : List ChainInstr := []
  post : List ChainInstr := []
  hold : Bool := false
deriving DecidableEq, Repr

/-- The plan of an instruction on a core. -/
def kvaPlan (k : Core) (w : KvaWord) (tab : KvTab) (a : Append) : KvaPlan :=
  let slotted := decide (w.slot.toNat < 4)
  let chain := if slotted then k.slots.getD w.slot.toNat [] else []
  let (pre, post, hold) := chainStages chain
  { tab := tab, app := a, lay := { arrange := w.arrange.toNat, layout := w.layout.toNat, eng := w.eng.toNat, m := a.n, n := tab.d },
    slotted := slotted, filled := !slotted || !chain.isEmpty, chain := chain, pre := pre, post := post, hold := hold }

/-- Tensor operands of the program. -/
def KvaPlan.uses (p : KvaPlan) (k : Core) : List TensorUse := tensorUses k (p.pre ++ p.post) p.lay.m p.lay.n 0

/-- Table 12.14 with R44 and R305 to R307: the decode checks. -/
def kvaOk (w : KvaWord) : Bool :=
  let w := w.norm
  decide (w.rsv = 0) && decide (w.rsvExt = 0) && (decide (w.slot.toNat < 4) || decide (w.slot = 7)) && decide (w.arrange ≠ 3)
    && decide (w.layout ≠ 3) && decide (w.rnd ≠ 3) && unused (decide (w.arrange = 2)) w.eng

/-- The checks before any accumulator is read (R122, R124, R127, R135, R181). -/
def State.kvaCode (s : State) (c : Nat) (k : Core) (w : KvaWord) (p : KvaPlan) : Nat :=
  let prog := p.pre ++ p.post
  let taps := tapsOf k prog
  firstCode [
    failIf (p.app.bad p.tab || !p.filled || namesSel prog 5 5 || !p.lay.fits w.atile.toNat
      || (p.uses k).any (fun u => !u.d.ok) || taps.any fun x => !x.2.ok) cDescriptor,
    failIf (decide (p.app.pos0 + p.app.n > 2 ^ 20)) cLength,
    failIf (((p.uses k).flatMap TensorUse.ranges).any fun r => !s.own c r.1 r.2) cNotLocal,
    failIf ((taps.flatMap fun x => x.2.ranges 0 p.lay.m 0 p.lay.n).any fun r => !s.own c r.1 r.2) cNotLocal,
    failIf (namesSel prog 0xC 0xD) cNotLocal]

/-! ### The run of the chain -/

/-- A row rotated (R182): each element's sum truncated once. -/
def rotateWide (codes : List (Num × Num)) (half : Bool) (xs : List Wide) : List Wide × List (Nat × Nat) :=
  let rp := codes.length
  (codes.mapIdx fun i c => (i, c)).foldl (fun (l : List Wide × List (Nat × Nat)) p =>
    let (a, b) := rotPair half p.1 rp
    let xa := xs.getD a {}
    let xb := xs.getD b {}
    let (u, v) := rotSums xa.toNum xb.toNum p.2.1 p.2.2
    ((l.1.set a ((u.chain false).inherit [xa, xb])).set b ((v.chain false).inherit [xa, xb]), l.2 ++ pairFlags a b u.flags v.flags)) (xs, [])

/-- What a KVA's chain gives: the core after it, the codes of its rows in the tail format, outputs to hold, flags. -/
structure KvaRows where
  core : Core := {}
  codes : List Nat := []
  held : List Held := []
  chainEvents : List FlagEvent := []
  finalEvents : List FlagEvent := []
deriving DecidableEq, Repr

/-- R181, R182: the chain over the region, rotation, and one rounding to the tail format. -/
def State.kvaRows (s : State) (k : Core) (t : TileCtx) (w : KvaWord) (p : KvaPlan) (j : ChainJob) : State × KvaRows :=
  let rs : RndSpec := { rnd := (Rnd.ofCode w.rnd.toNat).getD .rne, srb := w.srb.toNat, salt := w.salt.toNat, sat := true }
  let m := p.lay.m
  let n := p.lay.n
  let free := s.freeCount
  let s := { s with freeCount := free + 8 * (m + n) }
  let all := p.pre ++ p.post
  let o := ({ job := j, free := free } : ChainEnv).stage t rs k p.pre m n 0 fun r c => (j.start r c, none)
  let (stats, ev1) := statsAfter all wRedRow m 0 (rowCycle 0 n p.pre.length) [] o.rowTerms
  let t1 := chainCycle n p.pre.length m 0 0
  let t2 := t1 + chainCycle n p.post.length m 0 0
  let o2 :=
    if p.hold then
      let k := p.lay.store o.core w.atile.toNat o.elems
      ({ job := j, stats := stats, free := free, t0 := t1 } : ChainEnv).stage t rs k p.post m n 0 fun r c =>
        let e := o.elems.getD (r * n + c) {}
        let w0 := e.w.getD 0 {}
        ({ w := [w0, {}, {}, {}], sigma := e.sigma }, some w0)
    else { core := o.core, elems := o.elems }
  let (_, ev2) := statsAfter all wRedRow m 0 (rowCycle t1 n p.post.length) stats o2.rowTerms
  let (_, ev3) := statsAfter all wRedCol n 0 (fun _ => t2) [] (o.colTerms ++ o2.colTerms)
  let fins := o2.elems.map fun e => e.final false
  let codesOf (r : Nat) : List (Num × Num) :=
    (List.range (p.app.rp n)).map fun i => rotCodes p.app.base i (p.app.rp n) (p.app.pos0 + r)
  let rot := if p.app.rot then (List.range m).map fun r =>
      rotateWide (codesOf r) p.app.half ((List.range n).map fun c => (fins.getD (r * n + c) {}).w) else []
  let evr := (rot.mapIdx fun r x => x.2.map fun p => ({ flags := p.2, row := r, col := p.1, time := t2 + 1 + r } : FlagEvent)).flatten
  let (k, codes, evf) := finalRound o2.core t rs n 0 (fun i rd =>
    if p.app.rot then roundWide p.tab.tail rd true ((rot.getD (i / n) ([], [])).1.getD (i % n) {})
    else (fins.getD i {}).round p.tab.tail rd true) (m * n)
  let (s, h1) := s.holdTaps t (tapsOf k p.pre) m 0 n o.taps
  let (s, h2) := s.holdTaps t (tapsOf k p.post) m 0 n o2.taps
  (s, { core := k, codes := codes, held := h1 ++ h2, chainEvents := o.events ++ ev1 ++ o2.events ++ ev2 ++ ev3 ++ evr,
        finalEvents := j.readEvents ++ evf })

/-! ### Pages -/

/-- What placing rows has come to: the state, the pages that cannot be written now, quantisation flags, a code. -/
structure Placed where
  s : State
  spilled : List Nat := []
  flags : Nat := 0
  code : Nat := 0

/-- R183: the rows of page j placed, or the page put among those to spill. -/
def Placed.page (x : Placed) (t : KvTab) (a : Append) (rows : Nat → List Nat) (j : Nat) : Placed :=
  if x.code ≠ 0 then x else
  let ad := t.entry a.layer a.head a.kind j
  let e := x.s.ent t.ward ad
  let r := pageRows a.pos0 a.n j
  let ec := x.s.entCode t.ward ad
  if ec ≠ 0 then { x with code := ec } else
  match t.fate e r 0 with
  | .skip => x
  | .fault code => { x with code := code }
  | .wait => { x with spilled := x.spilled ++ [j] }
  | .ready =>
    let y := x.s.applyPage t ad a.layer r fun slot => rows (a.slotRow j slot)
    if y.code ≠ 0 then { x with code := y.code }
    else if y.done then { x with s := y.s, flags := x.flags ||| y.flags }
    else { x with s := y.s, spilled := x.spilled ++ [j] }

/-- R184: the spill of pages into the scatter buffer: the code where it cannot be made. -/
def State.spill (s : State) (t : KvTab) (a : Append) (codes : List Nat) (pages : List Nat) : State × Nat :=
  let ent (j : Nat) : Nat := t.entry a.layer a.head a.kind j
  let sbuf := a.w3
  let code := firstCode [failIf (decide (sbuf % 64 ≠ 0)) cDescriptor,
    failIf (decide (sbuf = 0) || pages.any fun j =>
      decide ((s.ent t.ward (ent j)).pcount + (pages.filter fun i => ent i = ent j).length > 7)) cCapacity,
    (if sbuf = 0 then 0 else s.rangeCode t.ward sbuf (64 + a.n * t.d * 2) true)]
  if code ≠ 0 then (s, code) else
  let mask := pages.foldl (fun m j => m ||| 2 ^ (j - a.pos0 / 16)) 0
  let hdr := bytesOf 8 a.w0 ++ bytesOf 8 a.w1 ++ bytesOf 8 a.w2 ++ bytesOf 8 mask ++ bytesOf 8 1 ++ bytesOf 24 0
  let s := s.vwrite t.ward sbuf (hdr ++ codes.flatMap (bytesOf 2))
  let s := pages.foldl (fun s j =>
    let e := s.ent t.ward (ent j)
    s.setEnt t.ward (ent j) { e with pcount := e.pcount + 1 }) s
  (s.bump .kvpWardStat_SPILLS t.ward, 0)

/-- R183, R184: all pages of a KVA in ascending order; a fault leaves every page unwritten. -/
def State.appendRows (s : State) (t : KvTab) (a : Append) (codes : List Nat) : State × Nat × Nat :=
  let rows (r : Nat) : List Nat := (codes.drop (r * t.d)).take t.d
  let x := a.pages.foldl (fun x j => x.page t a rows j) ({ s := s } : Placed)
  if x.code ≠ 0 then (s, 0, x.code)
  else if x.spilled.isEmpty then (x.s, x.flags, 0)
  else
    let (s2, code) := x.s.spill t a codes x.spilled
    if code ≠ 0 then (s, 0, code) else (s2, x.flags, 0)

/-- R196: what the home scheduler remembers of a request's appends. -/
def Request.appendedTo (x : Request) (pos layer : Nat) : Request :=
  { x with lastPos := max x.lastPos pos, lastLayer := max x.lastLayer layer, appended := true }

/-- A KVA on its job (R181 to R184), on a core record k: state, core, and code. -/
def State.kvaFinish (s : State) (c : Nat) (k : Core) (t : TileCtx) (w : KvaWord) (p : KvaPlan) (j : ChainJob) : State × Nat :=
  let (s, o) := s.kvaRows k t w p j
  let (s, fl, code) := s.appendRows p.tab p.app o.codes
  if code ≠ 0 then (s, code) else
  let s := s.modReq t.req fun x => x.appendedTo (p.app.pos0 + p.app.n - 1) p.app.layer
  let s := s.setCore c { o.core with held := o.core.held ++ o.held, touched := p.tab.addr :: o.core.touched }
  let s := s.raiseChain c t { chainEvents := o.chainEvents, finalEvents := o.finalEvents }
  (s.raise c t (if fl = 0 then [] else [{ flags := fl }]), 0)

/-- KVA once decoded. -/
def kvaInstr (c : Nat) (w : KvaWord) : Run := fun s t =>
  let w := w.norm
  let s := s.noteIgnored t [w.srb.toNat, w.salt.toNat, w.layout.toNat]
  let w := if t.unlocked then w else { w with srb := 0, salt := 0, layout := 0 }
  let (s, bs, code) := s.vread t.ward ((s.core c).adr w.ra.toNat) 64
  if code ≠ 0 then (s, code) else
  let a := Append.ofBytes bs
  let (s, tab, tc) := s.kvTab t.ward a.w0
  if tc ≠ 0 then (s, tc) else
  let s := s.nameTable t.ward tab.addr
  let k := s.core c
  let p := kvaPlan k w tab a
  let code := s.kvaCode c k w p
  if code ≠ 0 then (s, code) else
  let (s, d) := s.readRanges ((p.uses k).flatMap TensorUse.ranges)
  if d ≠ 0 then (s, d) else
  let j := s.gatherJob k p.chain p.slotted p.lay 0 w.atile.toNat none (p.uses k) false 0
  if t.splitK > 1 then
    (s.setCore c { k with streams := (s.kvaRows k t w p j).2.core.streams, partials := k.partials ++
      [{ kp := t.kp, core := c, kind := .kva w, job := j, tregs := k.t, sregs := k.s, streams := k.streams, block := bs }] }, 0)
  else s.kvaFinish c k t w p j

/-- KVA (R181): one that reads a block held for release stays in its queue (R48). -/
def execKva (c : Nat) (w : KvaWord) (s : State) : Out :=
  let k := s.core c
  let (_, post, _) := chainStages (k.slots.getD w.slot.toNat [])
  let pre := (chainStages (k.slots.getD w.slot.toNat [])).1
  let held := s.heldFor c fun _ => k.accHeld || (decide (w.slot.toNat < 4) &&
    (tensorUses k (pre ++ post) 1 1 0).any (fun u => s.blocked c u.d.base u.d.span))
  s.issueUnless c (wordsOfExt w.ext) held (kvaOk w) (kvaInstr c w)

/-! ### SCATTER and PAGE.TRUNC -/

end Sys2Proof.Machine
namespace Sys2Proof

/-- Table 12.16a with R322: reserved bits 0, no extension word, unused fields 0. -/
def MoveWord.ok (w : MoveWord) (rd rb rc imm : Bool) : Bool :=
  decide (w.rsv = 0) && !w.ext && decide (w.aop = 0) && unused rd w.rd && unused rb w.rb && unused rc w.rc && unused imm w.imm

end Sys2Proof
namespace Sys2Proof.Machine

/-- A core that waits in a SCATTER or PAGE.TRUNC issues its instruction again. -/
def State.resumePages (s : State) (c : Nat) : State :=
  match (s.core c).wait with
  | some (.scatter a) => s.resumeWait c (.scatter a)
  | some (.trunc a) => s.resumeWait c (.trunc a)
  | _ => s

/-- What a scatter buffer's placement has come to: the mask left, and whether a page still waits. -/
structure Scattered where
  s : State
  mask : Nat := 0
  blocked : Bool := false
  flags : Nat := 0
  code : Nat := 0

/-- R185: one page of a buffer. -/
def Scattered.page (x : Scattered) (t : KvTab) (a : Append) (rows : Nat → List Nat) (j : Nat) : Scattered :=
  let k := j - a.pos0 / 16
  if x.code ≠ 0 ∨ x.blocked ∨ !x.mask.testBit k then x else
  let ad := t.entry a.layer a.head a.kind j
  let e := x.s.ent t.ward ad
  let r := pageRows a.pos0 a.n j
  let placed (s : State) (fl : Nat) : Scattered :=
    let e := s.ent t.ward ad
    { x with s := s.setEnt t.ward ad { e with pcount := e.pcount - 1 }, mask := x.mask - 2 ^ k, flags := x.flags ||| fl }
  let ec := x.s.entCode t.ward ad
  let own := ((List.range 64).filter fun i => x.mask.testBit i && decide (t.entry a.layer a.head a.kind (a.pos0 / 16 + i) = ad)).length
  if ec ≠ 0 then { x with code := ec } else
  match t.fate e r own with
  | .skip => placed x.s 0
  | .fault code => { x with code := code }
  | .wait => { x with blocked := true }
  | .ready =>
    let y := x.s.applyPage t ad a.layer r fun slot => rows (a.slotRow j slot)
    if y.code ≠ 0 then { x with code := y.code }
    else if y.done then placed y.s y.flags
    else { x with s := y.s, blocked := true }

/-- SCATTER once decoded (R185). -/
def scatterRun (c : Nat) (w : MoveWord) : Run := fun s t =>
  let buf := (s.core c).adr w.ra.toNat
  let (s, bs, code) := s.vread t.ward buf 64
  if code ≠ 0 then (s, code)
  else if wordAt bs 4 % 256 ≠ 1 then (s, 0) else
  let a := Append.ofBytes bs
  let (s, tab, tc) := s.kvTab t.ward a.w0
  if tc ≠ 0 then (s, tc) else
  let s := s.nameTable t.ward tab.addr
  let bad := decide (a.layer ≥ tab.layers) || decide (a.head ≥ tab.heads) || (!tab.ring && decide (a.pos0 + a.n > 16 * tab.pages))
  if bad then (s, cDescriptor) else
  let (s, data, dc) := s.vread t.ward (buf + 64) (a.n * tab.d * 2)
  if dc ≠ 0 then (s, dc) else
  let wc := s.rangeCode t.ward buf 64 true
  if wc ≠ 0 then (s, wc) else
  let rows (r : Nat) : List Nat := (List.range tab.d).map fun i => ofBytes ((data.drop (2 * (r * tab.d + i))).take 2)
  let x := a.pages.foldl (fun x j => x.page tab a rows j) ({ s := s, mask := a.w3 } : Scattered)
  let s := x.s.vwrite t.ward (buf + 24) (bytesOf 8 x.mask)
  let s := if x.mask = 0 then s.vwrite t.ward (buf + 32) (bytesOf 1 2) else s
  let k := s.core c
  let s := s.setCore c { k with touched := tab.addr :: k.touched }
  let s := s.raise c t (if x.flags = 0 then [] else [{ flags := x.flags }])
  if x.code ≠ 0 then (s, x.code)
  else if x.mask = 0 then (s, 0)
  else (s.waitIn c 1 (.scatter tab.addr), 0)

/-- SCATTER (R185). -/
def execScatter (c : Nat) (w : MoveWord) (s : State) : Out :=
  (s.resumePages c).issue c 1 (w.ok false false false false) (scatterRun c w)

/-- PAGE.TRUNC once decoded (R187). -/
def truncRun (c : Nat) (w : MoveWord) : Run := fun s t =>
  let k := s.core c
  let p := (k.sreg w.rb.toNat).toNat
  if p ≥ 2 ^ 20 then (s, 0) else
  let (s, tab, tc) := s.kvTab t.ward (k.adr w.ra.toNat)
  if tc ≠ 0 then (s, tc) else
  let s := s.nameTable t.ward tab.addr
  let (s, ok, code) := s.truncTable tab p
  if code ≠ 0 then (s, code)
  else if ok then ((s.recountDrops tab).truncBindings t.ward tab.addr p, 0)
  else (s.waitIn c 1 (.trunc tab.addr), 0)

/-- PAGE.TRUNC (R187). -/
def execPageTrunc (c : Nat) (w : MoveWord) (s : State) : Out :=
  (s.resumePages c).issue c 1 (w.ok false true false false) (truncRun c w)

/-! ### Absent pages (R196) -/

/-- PAGE_ABSENT_REPORT (R168, R196): the report of a page that a task found absent, once for each: a recomputation begins,
or the fault stands and the request ends with it (R54). -/
def execPageAbsentReport (r : Nat) (s : State) : Out :=
  match s.req r with
  | none => .next s
  | some x =>
    if x.reported ≥ x.absents.length then .next s else
    let s := (s.bump .kvpWardStat_ABSENT x.ward).modReq r fun y => { y with reported := y.reported + 1 }
    if x.phase ≠ .absent then .next s
    else if s.mayRecompute x then .next (s.startRecompute x x.absentTable)
    else .next (s.modReq r fun y => { y with phase := .running, tasks := cancelRest (y.absents.headD {}).task y.tasks })

/-- The tiles of a task that no core runs or has saved and that have not been released, below the next to pull. -/
def State.lostTiles (s : State) (r n : Nat) (x : Task) : List Nat :=
  let first := bits ((x.desc.getD 2 0).toNat) 63 40
  let runs (k : Core) (i : Nat) : Bool := match k.tile with
    | some t => decide (t.req = r) && decide (t.task = n) && decide (t.idx = i)
    | none => false
  ((List.range (x.nextTile - first)).map (first + ·)).filter fun i =>
    !decide (i ∈ x.released) && !(s.cores.any (runs · i)) && !(s.images.any fun m => runs m.core i)

/-- R196: the tasks of a request that found pages absent are dispatched again, each from its first unreleased tile. -/
def State.redispatch (s : State) (r : Nat) : State :=
  s.modReq r fun x => { x with absents := [], reported := 0, tasks := x.tasks.mapIdx fun n y =>
    if n < x.ntask ∧ y.phase = .faulted ∧ y.fault = cPageAbsent then
      { y with phase := .dispatched, fault := 0, faultTile := 0, faultOrd := 0, returned := s.lostTiles r n y }
    else y }

/-- RECOMPUTE_DONE (R196): the recompute tasks of a request are complete. -/
def execRecomputeDone (r : Nat) (s : State) : Out :=
  match s.req r with
  | none => .next s
  | some x =>
    let again := x.tasks.drop x.ntask
    if x.phase ≠ .recomputing ∨ !(again.all fun y => decide (y.phase = .complete)) then .next s else
    let s := s.setRecomp x.ward x.absentTable false
    let s := s.recountDrops (s.kvTab x.ward x.absentTable).2.1
    let s := s.redispatch r
    let s := s.modReq r fun y => { y with phase := .running, tasks := y.tasks.take y.ntask }
    .next (s.exportCheck x.ward)

end Sys2Proof.Machine
end

