-- ==== Sys2Proof/Machine/Attention.lean ====
section
/-! DEFINITION. Fused attention (06_fused_attention.md): the walk (R190, R191), ATTN and ATTN.W (R147 to R166), the
merge of parts and ATTN.MRG (R162 to R164, R321). -/
namespace Sys2Proof.Machine

/-! ### The control block and the plan -/

/-- Table 6.3: the attention control block's words. -/
structure Acb where
  w : List Nat := []
deriving DecidableEq, Repr

def Acb.word (a : Acb) (n : Nat) : Nat := a.w.getD n 0
def Acb.scale (a : Acb) : Num := Num.decode .fp32 (bits (a.word 0) 63 32)
def Acb.g (a : Acb) : Nat := bits (a.word 0) 31 24
def Acb.d (a : Acb) : Nat := bits (a.word 0) 8 0
def Acb.rp (a : Acb) : Nat := if bits (a.word 0) 23 16 = 0 then a.d / 2 else bits (a.word 0) 23 16
def Acb.qpos0 (a : Acb) : Nat := bits (a.word 1) 63 44
def Acb.window (a : Acb) : Nat := bits (a.word 1) 43 24
def Acb.prefix_ (a : Acb) : Nat := bits (a.word 1) 23 4
def Acb.half (a : Acb) : Bool := (a.word 1).testBit 3
def Acb.segment (a : Acb) : Bool := (a.word 1).testBit 1
def Acb.causal (a : Acb) : Bool := (a.word 1).testBit 0
def Acb.qpostab (a : Acb) : Nat := a.word 2
def Acb.segtab (a : Acb) : Nat := a.word 3
def Acb.biastab (a : Acb) : Nat := a.word 4
def Acb.base (a : Acb) : Nat := bits (a.word 5) 63 32

/-- R148: the conditions of DESCRIPTOR on the control block. -/
def Acb.bad (a : Acb) (rope : Nat) : Bool :=
  decide (bits (a.word 0) 15 9 ≠ 0) || (a.word 1).testBit 2 || decide (bits (a.word 5) 31 0 ≠ 0) || decide (a.word 6 ≠ 0)
    || decide (a.word 7 ≠ 0) || decide (a.d % 16 ≠ 0) || decide (a.d < 16) || decide (a.d > 256) || decide (a.g = 0)
    || decide (a.rp > a.d / 2) || !(decide (a.scale.cls = .fin) || decide (a.scale.cls = .zero))
    || (decide (rope ≠ 0) && !rotBaseOk a.base)

/-- An attention instruction with its registers and control block read. -/
structure AttnPlan where
  out : TDesc := {}
  q : TDesc := {}
  area : Nat := 0
  acb : Acb := {}
  m : Nat := 0
  d : Nat := 0
  wide : Bool := false
  shape2 : Bool := false
  stat : Nat := 0
  marea : Nat := 0
  sig : Nat := 0
  walk : Nat := 0
deriving DecidableEq, Repr

/-- Key slots per block (R151). -/
def AttnPlan.nb (p : AttnPlan) : Nat := if p.wide then 256 else 64
/-- Depth of the form's groups (R165). -/
def AttnPlan.kb (p : AttnPlan) : Nat := if p.wide then 16 else 64

/-- The plan of ATTN (wideForm false) or ATTN.W (R165). -/
def State.attnPlan (s : State) (k : Core) (t : TileCtx) (w : AttnWord) (wideForm : Bool) : AttnPlan :=
  let r (n : BitVec 6) : Nat := k.adr n.toNat
  let q := k.desc w.q.toNat
  let form := expertVal t w.form.toNat
  let area := r w.acb
  let acb : Acb := { w := (List.range 8).map fun i => s.peekN (area % 2 ^ 52 + 8 * i) 8 }
  { out := k.desc w.out.toNat, q := q, area := area, acb := acb, m := q.rows, d := acb.d,
    wide := wideForm || decide (form = 2) || (decide (form = 0) && decide (q.rows ≤ 128)),
    shape2 := decide (expertVal t w.shape.toNat = 2), stat := r w.stat, marea := r w.marea, sig := r w.sig, walk := r w.walk }

/-- Whether the accumulators are enough (R165). -/
def AttnPlan.fits (p : AttnPlan) : Bool :=
  let (l, nc) := if p.wide then (16, 256) else (64, 64)
  let re := if p.shape2 then p.m else ceilDiv p.m 4
  decide (ceilDiv re l * (ceilDiv p.d nc + 1) ≤ 8)

/-- Bytes of one part of the merge area (R162). -/
def partBytes (m d : Nat) : Nat := roundUp (m * d * 12 + m * 32) 64

/-- Address of the merge header of a tile. -/
def AttnPlan.header (p : AttnPlan) (t : TileCtx) : Nat := p.marea + t.idx / t.splitK * (64 + t.splitK * partBytes p.m p.d)

/-- Whether OUT has a format that attention writes (R147). -/
def attnFmt (d : TDesc) : Bool := decide (2 ≤ d.fmtCode) && decide (d.fmtCode ≤ 4)

/-- Table 12.15: the decode checks of ATTN and ATTN.W, whose FORM is 0. -/
def attnOk (w : AttnWord) (wideForm : Bool) : Bool :=
  w.ext && decide (w.rsv = 0) && decide (w.rsvExt = 0) && decide (w.rope ≠ 3) && decide (w.shape ≠ 3) && decide (w.rnd ≠ 3)
    && decide (w.send.toNat < 2) && decide (w.out.toNat < 32) && decide (w.q.toNat < 32) && decide (w.npart = 0)
    && (if wideForm then decide (w.form = 0) else decide (w.form ≠ 3)) && unused (decide (w.send = 1)) w.sig

/-- The code of the outputs' places (R145, R146). -/
def State.attnTargets (s : State) (c : Nat) (t : TileCtx) (w : AttnWord) (out : TDesc) (m d stat sig : Nat) : Nat :=
  let rs := out.ranges 0 m 0 d ++ (if w.stat = 0 then [] else [(stat, 32 * m)])
  firstCode [
    (if w.send = 0 then failIf (rs.any fun r => !s.own c r.1 r.2) cNotLocal
     else firstCode (rs.map fun r => s.targetCode t.ward r.1 r.2)),
    (if w.send = 1 then (s.signalPlace t.ward sig).1 else 0)]

/-- Whether the attention instruction at core c's program counter is ATTN.W. -/
def State.isWideAttn (s : State) (c : Nat) (t : TileCtx) : Bool := decide (wordOpc (s.codeWord t (s.core c).pc) = 1)

/-- The checks of R46, R147 to R149, R162 and R165 before any key. BIASTAB is checked whether the bias is used or not
(R148). -/
def State.attnCode (s : State) (c : Nat) (t : TileCtx) (w : AttnWord) (p : AttnPlan) : Nat :=
  let split := decide (t.splitK > 1)
  firstCode [
    failIf (decide (p.area % 64 ≠ 0) || !p.out.ok || !p.q.ok || !attnFmt p.out) cDescriptor,
    failIf (s.own c p.area 64 && (p.acb.bad w.rope.toNat || decide (p.q.cols ≠ p.d) || decide (p.m % p.acb.g ≠ 0)
      || !p.fits || decide (p.out.rows ≠ p.m) || decide (p.out.cols ≠ p.d))) cDescriptor,
    failIf (split && (decide (w.marea = 0) || decide (p.marea % 64 ≠ 0))) cDescriptor,
    failIf (!s.own c p.area (64 + 32 * p.m) || !p.q.own s c) cNotLocal,
    failIf (s.own c p.area 64 && decide (p.acb.qpostab = 0) && decide (p.acb.qpos0 + p.m / p.acb.g > 2 ^ 20)) cLength,
    failIf (!s.own c p.acb.biastab (1024 * p.acb.g)) cNotLocal,
    s.attnTargets c t w p.out p.m p.d p.stat p.sig,
    (if split then s.targetCode t.ward (p.header t) (64 + t.splitK * partBytes p.m p.d) else 0)]

/-! ### The walk (R190, R191) -/

/-- A walk block (Table 7.8). -/
structure Walk where
  table : Nat := 0
  w1 : Nat := 0
deriving DecidableEq, Repr

def Walk.layer (x : Walk) : Nat := bits x.w1 63 54
def Walk.head (x : Walk) : Nat := bits x.w1 53 46
def Walk.first (x : Walk) : Nat := bits x.w1 45 26
def Walk.count (x : Walk) : Nat := bits x.w1 25 6 + 1
def Walk.pages (x : Walk) : List Nat :=
  (List.range ((x.first + x.count - 1) / 16 + 1 - x.first / 16)).map fun i => x.first / 16 + i

/-- A walk block and its table read and checked against a head dimension (R190). -/
def State.readWalk (s : State) (ward addr d : Nat) : State × Walk × KvTab × Nat :=
  if addr % 64 ≠ 0 then (s, {}, {}, cMisaligned) else
  let (s, bs, code) := s.vread ward addr 64
  let x : Walk := { table := wordAt bs 0, w1 := wordAt bs 1 }
  if code ≠ 0 then (s, x, {}, code) else
  let (s, t, tc) := s.kvTab ward x.table
  if tc ≠ 0 then (s, x, t, tc) else
  let code := firstCode [
    failIf (decide (x.layer ≥ t.layers) || decide (x.head ≥ t.heads) || decide (t.d ≠ d)
      || (!t.ring && decide (x.first + x.count > 16 * t.pages))) cDescriptor,
    failIf (decide (x.first + x.count > 2 ^ 20)) cLength]
  (s, x, t, code)

/-- The entries of both streams of a walk, in page order. -/
def Walk.entries (x : Walk) (t : KvTab) : List (Nat × Nat) :=
  x.pages.flatMap fun j => [(j, t.entry x.layer x.head 0 j), (j, t.entry x.layer x.head 1 j)]

/-- R189, R191: whether an entry may serve page j of the range. -/
def Walk.good (x : Walk) (j : Nat) (e : KvEnt) : Bool :=
  e.readable && decide (e.pageNo = j) && (!e.pend || decide (x.first + x.count ≤ 16 * j + e.fill))

/-- R168: whether a readable entry's content has a format that its table does not allow. -/
def KvEnt.odd (e : KvEnt) (t : KvTab) : Bool := e.readable && decide (e.fmtCode ≠ t.fmtCode) && decide (e.fmtCode ≠ t.tailCode)

/-- The first position of the range that page j's entry does not serve (R168). -/
def Walk.absentFrom (x : Walk) (j : Nat) (e : KvEnt) : Nat :=
  max x.first (16 * j + if e.readable && decide (e.pageNo = j) then e.fill else 0)

/-- What a validation answers: the entries' fills, a fault with the page that is absent, or that a reference count is
full. -/
inductive WalkEnd where
  | ok (fills : List (Nat × Nat))
  | fault (code : Nat) (page : Absent)
  | wait
deriving DecidableEq, Repr

/-- R191: the validation of a walk by core c: references taken and LAST_STEP set where every entry passes. -/
def State.validate (s : State) (c : Nat) (t : TileCtx) (addr d : Nat) : State × WalkEnd :=
  let (s, x, tab, code) := s.readWalk t.ward addr d
  if code = cPoison ∨ code = cUncorrectable then (s, .fault cPageAbsent { table := x.table, layer := x.layer, pos := x.first })
  else if code ≠ 0 then (s, .fault code {}) else
  let s := s.nameTable t.ward tab.addr
  let es := x.entries tab
  if es.any fun p => s.controlCode t.ward p.2 16 false = 0 ∧ s.controlCode t.ward p.2 16 true = cProtection then
    (s, .fault cProtection {})
  else if es.any fun p => decide (s.controlCode t.ward p.2 16 false = 0) && (s.ent t.ward p.2).odd tab then (s, .fault cDescriptor {})
  else match es.find? fun p => decide (s.controlCode t.ward p.2 16 true ≠ 0) || !x.good p.1 (s.ent t.ward p.2) with
  | some p => (s, .fault cPageAbsent { table := tab.addr, layer := x.layer, pos := x.absentFrom p.1 (s.ent t.ward p.2) })
  | none =>
  if es.any fun p => decide ((s.ent t.ward p.2).refs ≥ 4095) then (s, .wait)
  else
    let fills := es.map fun p => (p.2, (s.ent t.ward p.2).fill)
    let s := es.foldl (fun s p =>
      let e := s.ent t.ward p.2
      s.setEnt t.ward p.2 { e with refs := e.refs + 1, lastStep := s.step16 }) s
    let k := s.core c
    (s.setCore c { k with refs := k.refs ++ es.map (fun p => { ward := t.ward, table := tab.addr, entry := p.2 }),
                          walked := some (addr, fills) }, .ok fills)

/-- WALK_VALIDATION (R191): the walk of an ATTN that enters its queue, where the ATTN passes the checks that come
first; one that does not faults when it is issued (R309). -/
def execWalkValidation (c : Nat) (w : AttnWord) (s : State) : Out :=
  match s.issuing c with
  | none => .next s
  | some t =>
    let k := s.core c
    let wide := s.isWideAttn c t
    let p := s.attnPlan k t w wide
    if k.walked.isSome ∨ attnOk w wide = false ∨ s.attnCode c t w p ≠ 0 ∨ s.damage (p.area % 2 ^ 52) 64 ≠ 0 then .next s else
    let (s', r) := s.validate c t p.walk p.d
    match r with
    | .ok _ => .next s'
    | .wait => .next s
    | .fault code page => .next (s'.taskFault c code page)

/-! ### Keys and scores -/

/-- One key of the range: slot within it, position, operand row and its flags, page scales and value row. -/
structure AttnKey where
  slot : Nat := 0
  pos : Nat := 0
  k : List Num := []
  fl : List (Nat × Nat) := []
  sk : Num := { cls := .fin, sig := 1 }
  v : List Num := []
  sv : Num := { cls := .fin, sig := 1 }
deriving DecidableEq, Repr

/-- The scale of a page's content (R150): 1 in a float format. -/
def KvEnt.scaleNum (e : KvEnt) : Num :=
  if e.fmtCode < 2 then Num.decode .bf16 e.scale else { cls := .fin, sig := 1 }

/-- Slots [lo, hi) of a page as operands, one list a slot. -/
def State.pageNums (s : State) (t : KvTab) (e : KvEnt) (lo hi : Nat) : State × List (List Num) × Nat :=
  let f := (Fmt.ofCode e.fmtCode).getD .bf16
  let (s, cs, code) := s.readSlots t e.frame f lo (hi - lo)
  (s, (List.range (hi - lo)).map fun i => ((cs.drop (i * t.d)).take t.d).map (Num.decode f), code)

/-- The keys of the range below the fills of both pages (R149, R161, R169): state, keys, code. -/
def State.attnKeys (s : State) (t : KvTab) (x : Walk) (fills : List (Nat × Nat)) (rot : Nat → Option (List (Num × Num)))
    (half : Bool) : State × List AttnKey × Nat :=
  let fillOf (a : Nat) : Nat := ((fills.find? fun p => p.1 = a).map (·.2)).getD 0
  x.pages.foldl (fun (acc : State × List AttnKey × Nat) j =>
    let (s, ks, code) := acc
    let ak := t.entry x.layer x.head 0 j
    let av := t.entry x.layer x.head 1 j
    let ek := s.ent t.ward ak
    let ev := s.ent t.ward av
    let lo := x.first - 16 * j
    let hi := min (min 16 (x.first + x.count - 16 * j)) (min (fillOf ak) (fillOf av))
    if hi ≤ lo then acc else
    let (s, kn, c1) := s.pageNums t ek lo hi
    let (s, vn, c2) := s.pageNums t ev lo hi
    let new := (List.range (hi - lo)).map fun i =>
      let pos := 16 * j + lo + i
      let raw := kn.getD i []
      let (kv, fl) := match rot pos with | some cs => rotate cs half raw | none => (raw.map Num.toCofNum, [])
      ({ slot := pos - x.first, pos := pos, k := kv, fl := fl, sk := ek.scaleNum, v := (vn.getD i []).map Num.toCofNum,
         sv := ev.scaleNum } : AttnKey)
    (s, ks ++ new, firstCode [code, c1, c2])) (s, [], 0)

/-- R160: the index of the distance bias for a distance. -/
def biasIndex (delta : Int) : Nat :=
  let a := delta.natAbs
  let j := if a < 128 then a else let e := a.log2; 128 + 8 * (e - 7) + a >>> (e - 3) % 8
  if delta ≥ 0 then j else 256 + j

/-- R159: whether a key position is allowed, bias apart. -/
def Acb.allowed (a : Acb) (seg : Nat → Nat) (qp kp : Nat) : Bool :=
  let ok := !a.causal || decide (kp ≤ qp)
  let ok := if a.window = 0 then ok else
    ok && (if a.causal then decide (qp < kp + a.window) else decide (qp < kp + a.window) && decide (kp < qp + a.window))
  let ok := ok || (decide (a.prefix_ ≠ 0) && decide (qp < a.prefix_) && decide (kp < a.prefix_))
  ok && (!a.segment || decide (seg kp = seg qp))

/-- R150: a score, with flags. -/
def score (c sk : Num) (x : Wide) (b : Num) : Wide × Nat :=
  let cs := c.mul sk
  let p := cs.num.mul x.toNum
  let g := exactSum [p, b.term]
  (g.chain false, cs.flags ||| g.flags)

/-- The product of a query row and a key row in the form's groups (R150, R71 to R73). -/
def qkProduct (q k : List Num) (depth : Nat) : Wide × Nat :=
  let (acc, fl) := accElem false true q.length depth [{ a := q, b := k }] {}
  (acc.value, fl.foldl (fun a p => a ||| p.1) 0)

/-- What the rows of a tile have come to: rows, flag events, whether an anchor lost partials. -/
structure AttnRows where
  rows : List Row := []
  events : List FlagEvent := []
  lost : Bool := false
deriving DecidableEq, Repr

/-- What the scores of a tile need: the plan, query rows with flags, query positions, segments, bias entries. -/
structure AttnIn where
  p : AttnPlan := {}
  q : List (List Num) := []
  qfl : List (List (Nat × Nat)) := []
  qpos : List Nat := []
  segLo : Nat := 0
  segs : List Nat := []
  bias : List Nat := []
  useBias : Bool := false
deriving DecidableEq, Repr

/-- The scores of a row against keys, with their flags, those of a rotated key at their dimension (R150, R158 to R160). -/
def AttnIn.scores (x : AttnIn) (r : Nat) (ks : List AttnKey) : List (Key × List (Nat × Nat)) :=
  let a := x.p.acb
  let qp := x.qpos.getD (r / a.g) 0
  let seg (pos : Nat) : Nat := x.segs.getD (pos - x.segLo) 0
  ks.filterMap fun k =>
    let code := x.bias.getD (r % a.g * 512 + biasIndex ((qp : Int) - k.pos)) 0
    let b : Num := if x.useBias then Num.decode .bf16 code else {}
    if !a.allowed seg qp k.pos || (decide (b.cls = .inf) && b.neg) then none else
    let (pr, f1) := qkProduct (x.q.getD r []) k.k x.p.kb
    let (sc, f2) := score a.scale k.sk pr b
    some ({ slot := k.slot, s := sc, v := k.v, scale := k.sv }, k.fl ++ (if f1 ||| f2 = 0 then [] else [(k.slot, f1 ||| f2)]))

/-- The rows of a tile through blocks of keys (R151). A flag's cycle is that of its block, its stage in the block and its
row. The flags of a query row's rotation are those of its first block with an allowed key: a row without one raises
none (R156). -/
def AttnIn.run (x : AttnIn) (blocks : List (List AttnKey)) : AttnRows :=
  let rows := (List.range x.p.m).map fun r =>
    let cycle (b stage : Nat) : Nat := (3 * b + stage) * x.p.m + r
    (blocks.mapIdx fun b ks => (b, ks)).foldl (fun (st : RowOut × Bool) q =>
      let sc := x.scores r q.2
      let o := st.1.row.block (sc.map (·.1)) x.p.kb true
      let first := (if st.2 || sc.isEmpty then [] else x.qfl.getD r []) ++ sc.flatMap (·.2)
      ({ row := o.row, lost := st.1.lost || o.lost,
         events := st.1.events ++ (first.map fun f => { flags := f.2, col := f.1, time := cycle q.1 0 })
           ++ o.events.map fun e => { e with time := cycle q.1 e.time } }, st.2 || !sc.isEmpty))
      ({ row := { o := List.replicate x.p.d {} } }, false)
  { rows := rows.map (·.1.row), lost := rows.any (·.1.lost),
    events := (rows.mapIdx fun r o => o.1.events.map fun e => { e with row := r }).flatten }

/-! ### The merge of parts (R163) -/

/-- One part joined to a row: the row, its flags with their columns, and whether partials were lost. -/
def Row.join (r p : Row) : Row × List (Nat × Nat) × Bool :=
  if r.nan then (r, [], false)
  else if p.nan then (r.dead, [], false)
  else match p.a with
  | none => (r, [], false)
  | some a =>
    let a' := match r.a with | none => a | some b => max a b
    if a'.natAbs ≥ 2 ^ 30 then (r.dead, [(0, flInvalid)], false) else
    let (r1, lost) := r.rise a' true
    let (l, f0) := r1.l.combine (p.l.shift (a - a'))
    let os := r1.o.mapIdx fun d o => o.combine ((p.o.getD d {}).shift (a - a'))
    ({ r1 with l := l, o := os.map (·.1) }, ((0, f0) :: os.mapIdx fun d x => (d, x.2)).filter fun f => f.2 ≠ 0, lost)

/-- Parts merged in their order: the combination of R36 for attention, whose KGROUP is R89's. -/
def mergeParts (m d : Nat) (parts : List (List Row)) : AttnRows :=
  let rows := (List.range m).map fun r =>
    (parts.mapIdx fun i p => (i, p)).foldl (fun (x : Row × List FlagEvent × Bool) p =>
      let (row, fl, lost) := x.1.join (p.2.getD r {})
      (row, x.2.1 ++ fl.map (fun f => { flags := f.2, row := r, col := f.1, kgroup := kgSplit, time := p.1 * m + r }), x.2.2 || lost))
      ({ o := List.replicate d {} }, [], false)
  { rows := rows.map (·.1), lost := rows.any (·.2.2), events := rows.flatMap (·.2.1) }

/-- LSE of a row's record (Table 6.5). -/
def Row.lse (r : Row) : Nat :=
  if r.nan then 0x7FC00000 else
  match r.a with
  | none => 0xFF800000
  | some a =>
    let x := r.l.w.dy
    if x.m ≤ 0 then 0xFF800000 else
    let (n, m) := log2Mag x.m.natAbs (x.e + a)
    (roundFloat .fp32 {} n m).1

/-- A row's record (Table 6.5); a row with no allowed key holds +0 (R156). -/
def Row.record (r : Row) : List Byte :=
  ({ r with l := if r.a = none ∧ r.nan = false then {} else r.l } : Row).encode r.lse

/-- The bytes of a part of the merge area (R162). -/
def partData (rows : List Row) : List Byte :=
  (rows.flatMap fun r => r.o.flatMap fun a => bytesOf 12 a.value.encode) ++ rows.flatMap Row.record

/-- The rows that a part's bytes spell. -/
def partRows (m d : Nat) (bs : List Byte) : List Row :=
  (List.range m).map fun r =>
    { Row.decode ((bs.drop (m * d * 12 + 32 * r)).take 32) with
      o := (List.range d).map fun i =>
        let w := Wide.decode (ofBytes ((bs.drop (12 * (r * d + i))).take 12))
        { w := w, terms := if w.cls = .zero ∧ w.neg then .negZero else .other } }

/-- The final division of a row's output (R154, R156). -/
def Row.final (r : Row) (f : Fmt) (i : Nat) (rd : Rounding) : Nat × Nat :=
  if r.nan then (f.nan, 0)
  else if r.a = none then (0, 0)
  else
    let o := (r.o.getD i {}).value
    let x : FinalVal := { w := o, num := o.dy, den := r.l.w.dy }
    x.round f rd true

/-- Status bits of finished rows (Table 6.6). A row whose allowed keys all score minus infinity counts as empty (log entry
145). -/
def rowBits (rows : List Row) : Nat :=
  (if rows.any (·.nan) then 2 ^ 18 else 0) + (if rows.any fun r => decide (r.a = none) && !r.nan then 2 ^ 17 else 0)

/-- Rows divided and rounded, and what is written of them: state, core, outputs, flags (R154, R155). -/
def State.finishRows (s : State) (k : Core) (t : TileCtx) (w : AttnWord) (out : TDesc) (d stat : Nat) (rows : List Row) :
    State × Core × List Held × List FlagEvent :=
  let srb := expertVal t w.srb.toNat
  let salt := expertVal t w.salt.toNat
  let rs : RndSpec := { rnd := (Rnd.ofCode w.rnd.toNat).getD .rne, srb := srb, salt := salt }
  let (k, codes, ev) := finalRound k t rs d 0 (fun i rd => (rows.getD (i / d) {}).final out.fmt (i % d) rd) (rows.length * d)
  let (s, h1) := s.holdRect t.ward out rows.length 0 d fun r c => codes.getD (r * d + c) 0
  let (s, h2) := if w.stat = 0 then (s, []) else s.holdAt t.ward stat (rows.flatMap Row.record)
  (s, k, h1 ++ h2, ev)

/-! ### ATTN -/

/-- The accumulators of a core after an attention instruction: no rule gives their contents (log entry 2). -/
def freeAccs (n : Nat) : List (Nat × Acc) :=
  ((List.range 131072).map fun i => (i, ({ w := freeWide (n + 2 * i), terms := .other, int := false } : Acc))).filter
    fun p => decide (p.2 ≠ {})

/-- The blocks of the range in a list of numbers. -/
def keyBlocks (nb : Nat) (ks : List AttnKey) (js : List Nat) : List (List AttnKey) :=
  js.map fun j => ks.filter fun k => k.slot / nb = j

/-- The stationary blocks of a key block's passes (R165, R166): K's, depth by depth along D, then V's, depth by depth
along the slots and then along the output columns. -/
def AttnPlan.passBlocks (p : AttnPlan) (j : Nat) (ks : List AttnKey) : List (List Cof) :=
  let key (i : Nat) : AttnKey := (ks.find? fun k => k.slot = p.nb * j + i).getD {}
  ((List.range (ceilDiv p.d p.kb)).map fun i => (List.range (min p.kb (p.d - p.kb * i))).flatMap fun x =>
    (List.range p.nb).map fun n => ((key n).k.getD (p.kb * i + x) {}).cof)
  ++ (List.range (p.nb / p.kb)).flatMap fun i => (List.range (ceilDiv p.d p.nb)).map fun o =>
    (List.range p.kb).flatMap fun x => (List.range (min p.nb (p.d - p.nb * o))).map fun y =>
      ((key (p.kb * i + x)).v.getD (p.nb * o + y) {}).cof

/-- The engines after the passes of an attention instruction over the blocks js (R105, R165): with rows split every engine
that has rows takes all blocks, with SHAPE = 2 engine n those congruent to n modulo 4. -/
def AttnPlan.engines (p : AttnPlan) (es : List Engine) (ks : List AttnKey) (js : List Nat) : List Engine :=
  es.mapIdx fun n e =>
    let mine := if p.shape2 then js.filter fun j => j % 4 = n else if n * ceilDiv p.m 4 < p.m then js else []
    e.runPasses (mine.flatMap fun j => p.passBlocks j (ks.filter fun k => k.slot / p.nb = j))

/-- The numbers of the blocks that a part takes (R162). -/
def partBlocks (nb kp splitK : Nat) : List Nat :=
  let share := ceilDiv nb splitK
  (List.range share).filterMap fun i => if kp * share + i < nb then some (kp * share + i) else none

/-- Blocks of own memory that hold an instruction's ranges. -/
def State.ownBlocks (s : State) (c : Nat) (rs : List (Nat × Nat)) : List Nat :=
  rs.flatMap fun r => match s.ownOff c r.1 with | some off => blocksOf off r.2 | none => []

/-- Positions of the query tokens (R149): state, positions, code. A reserved bit of an entry gives DESCRIPTOR (R148). -/
def State.queryPos (s : State) (t : TileCtx) (a : Acb) (n : Nat) : State × List Nat × Nat :=
  if a.qpostab = 0 then
    (s, (List.range n).map fun i => a.qpos0 + i, 0)
  else
    let (s, bs, code) := s.vread t.ward a.qpostab (4 * n)
    let ps := (List.range n).map fun i => ofBytes ((bs.drop (4 * i)).take 4)
    (s, ps, firstCode [code, failIf (ps.any fun x => decide (x ≥ 2 ^ 20)) cDescriptor])

/-- Segment IDs from the lowest to the highest position that a tile concerns: state, lowest position, IDs, code. -/
def State.segments (s : State) (t : TileCtx) (a : Acb) (ps : List Nat) : State × Nat × List Nat × Nat :=
  if a.segment = false ∨ ps.isEmpty then (s, 0, [], 0) else
  let lo := ps.foldl min (ps.headD 0)
  let hi := ps.foldl max 0
  let (s, bs, code) := s.vread t.ward (a.segtab + 2 * lo) (2 * (hi + 1 - lo))
  (s, lo, (List.range (hi + 1 - lo)).map fun i => ofBytes ((bs.drop (2 * i)).take 2), code)

/-- R162: the header of a query tile's merge area is cleared before its first part runs. -/
def State.clearHeader (s : State) (t : TileCtx) (p : AttnPlan) : State :=
  if t.splitK ≤ 1 ∨ (((s.task t.req t.task).map (·.cleared)).getD []).contains (p.header t) then s
  else (s.vwrite t.ward (p.header t) (bytesOf 64 0)).modTask t.req t.task fun x => { x with cleared := p.header t :: x.cleared }

/-- The computation of an ATTN whose walk is validated: state and code. -/
def State.attnGo (s : State) (c : Nat) (t : TileCtx) (w : AttnWord) (p : AttnPlan) (qpos : List Nat) (fills : List (Nat × Nat)) :
    State × Nat :=
  let a := p.acb
  let (s, x, tab, wc) := (s.clearHeader t p).readWalk t.ward p.walk p.d
  if wc ≠ 0 then (s, wc) else
  let codes (pos : Nat) : List (Num × Num) := (List.range a.rp).map fun i => rotCodes a.base i a.rp pos
  let (s, keys, kc) := s.attnKeys tab x fills (fun pos => if w.rope = 2 then some (codes pos) else none) a.half
  if kc ≠ 0 then (s, kc) else
  let (s, dmg) := s.readRanges (p.q.ranges 0 p.m 0 p.d ++ (if w.bias then [(a.biastab, 1024 * a.g)] else []))
  if dmg ≠ 0 then (s, dmg) else
  let (s, segLo, segs, sc) := s.segments t a (qpos ++ keys.map (·.pos))
  if sc ≠ 0 then (s, sc) else
  let qrows := (List.range p.m).map fun r =>
    let raw := s.rowOf p.q p.d (some r)
    if w.rope = 0 then (raw.map Num.toCofNum, []) else rotate (codes (qpos.getD (r / a.g) 0)) a.half raw
  let inp : AttnIn :=
    { p := p, q := qrows.map (·.1), qfl := qrows.map (·.2), qpos := qpos, segLo := segLo, segs := segs, useBias := w.bias,
      bias := if w.bias then (List.range (512 * a.g)).map fun i => s.peekN (a.biastab % 2 ^ 52 + 2 * i) 2 else [] }
  let js := partBlocks (ceilDiv x.count p.nb) t.kp t.splitK
  let res : AttnRows :=
    if p.shape2 then
      let parts := (List.range 4).map fun n => inp.run (keyBlocks p.nb keys (js.filter fun j => j % 4 = n))
      let mg := mergeParts p.m p.d (parts.map (·.rows))
      { rows := mg.rows, lost := mg.lost || parts.any (·.lost),
        events := parts.flatMap (·.events) ++ mg.events.map fun e => { e with time := 3 * (js.length + 1) * p.m + e.time } }
    else inp.run (keyBlocks p.nb keys js)
  let s := s.write (p.area % 2 ^ 52 + 64) (res.rows.flatMap fun r => ({ r with l := if r.a = none ∧ r.nan = false then {} else r.l } : Row).encode 0)
  let free := s.freeCount
  let s := { s with freeCount := free + 2 * 131072 }
  let k := { s.core c with acc := freeAccs free, accHeld := true, walked := none, engines := p.engines (s.core c).engines keys js }
  let blocks := s.ownBlocks c ((p.area, 64 + 32 * p.m) :: p.out.ranges 0 p.m 0 p.d ++ (if w.stat = 0 then [] else [(p.stat, 32 * p.m)]))
  let st := (if w.rope = 0 then 0 else 2 ^ 22) + (if w.bias then 2 ^ 21 else 0) + (if p.wide then 0x100 else 0)
    + (if p.shape2 then 2 ^ 23 else 0) + (if res.lost then 2 ^ 16 else 0)
  let sig := if w.send = 1 then [Held.signal (s.signalPlace t.ward p.sig).2 1] else []
  let part : AttnMerge :=
    { w := w, out := k.treg w.out.toNat, stat := p.stat, header := p.header t, sig := p.sig, m := p.m, d := p.d, parts := t.splitK }
  let (s, k, held, ev, bitsOut) :=
    if t.splitK > 1 then
      let (s, h) := s.holdAt t.ward (p.header t + 64 + t.kp * partBytes p.m p.d)
        (let bs := partData res.rows; bs ++ List.replicate (partBytes p.m p.d - bs.length) 0)
      (s, { k with merges := k.merges ++ [part] }, h, [], 0)
    else
      let (s, k, h, ev) := s.finishRows k t w p.out p.d p.stat res.rows
      (s, k, h ++ sig, ev, rowBits res.rows)
  let s := s.setCore c { k with held := k.held ++ held, blocks := k.blocks ++ blocks }
  let s := s.raiseChain c t { chainEvents := res.events, finalEvents := ev }
  (s.orStatus c (st ||| bitsOut), 0)

/-- ATTN and ATTN.W once decoded. -/
def attnRun (c : Nat) (w : AttnWord) (wideForm : Bool) : Run := fun s t =>
  let s := s.noteIgnored t [w.form.toNat, w.shape.toNat, w.srb.toNat, w.salt.toNat]
  let k := s.core c
  let p := s.attnPlan k t w wideForm
  let (s, dmg) := if s.own c p.area 64 && decide (p.area % 64 = 0) then s.readRanges [(p.area, 64)] else (s, 0)
  let p := s.attnPlan k t w wideForm
  let code := s.attnCode c t w p
  if code ≠ 0 then (s, code)
  else if dmg ≠ 0 then (s, dmg) else
  let (s, qpos, qc) := s.queryPos t p.acb (p.m / p.acb.g)
  if qc ≠ 0 then (s, qc) else
  match (s.core c).walked with
  | some (addr, fills) => if addr = p.walk then s.attnGo c t w p qpos fills else (s, cDescriptor)
  | none =>
    match s.validate c t p.walk p.d with
    | (s, .ok fills) => s.attnGo c t w p qpos fills
    | (s, .fault code page) =>
      if code = cPageAbsent then ((s.taskFault c code page), 0) else (s, code)
    | (s, .wait) => (s, 0)

/-- Whether an ATTN has to stay in its queue: it reads a held block (R48), or a page has 4,095 references (R191). -/
def State.attnHeld (s : State) (c : Nat) (w : AttnWord) (wideForm : Bool) : Bool :=
  match s.issuing c with
  | none => false
  | some t =>
    let k := s.core c
    let p := s.attnPlan k t w wideForm
    k.accHeld || ((p.area, 64) :: p.q.ranges 0 p.m 0 p.d).any (fun r => s.blocked c r.1 r.2)
      || (k.walked.isNone && decide (s.attnCode c t w p = 0)
          && (match (s.validate c t p.walk p.d).2 with | .wait => true | _ => false))

/-- ATTN (R151). -/
def execAttn (c : Nat) (w : AttnWord) (s : State) : Out :=
  s.issueUnless c 2 (s.attnHeld c w false) (attnOk w false) (attnRun c w false)

/-- ATTN.W (R165): the wide-shallow form. -/
def execAttnW (c : Nat) (w : AttnWord) (s : State) : Out :=
  s.issueUnless c 2 (s.attnHeld c w true) (attnOk w true) (attnRun c w true)

/-! ### ATTN.MRG -/

/-- Parts laid out as R162 says, from a header on: state, rows of each, code. -/
def State.readParts (s : State) (ward header m d n : Nat) : State × List (List Row) × Nat :=
  (List.range n).foldl (fun (x : State × List (List Row) × Nat) i =>
    let (s, bs, c) := x.1.vread ward (header + 64 + i * partBytes m d) (m * d * 12 + 32 * m)
    (s, x.2.1 ++ [partRows m d bs], firstCode [x.2.2, c])) (s, [], 0)

/-- Table 12.15: the decode checks of ATTN.MRG. -/
def mrgOk (w : AttnWord) : Bool :=
  w.ext && decide (w.rsv = 0) && decide (w.rsvExt = 0) && decide (w.rope = 0) && decide (w.form = 0) && decide (w.shape = 0)
    && decide (w.q = 0) && decide (w.acb = 0) && decide (w.walk = 0) && !w.bias && decide (w.rnd ≠ 3)
    && decide (w.send.toNat < 2) && decide (w.out.toNat < 32) && decide (w.npart ≠ 0) && unused (decide (w.send = 1)) w.sig

/-- ATTN.MRG once decoded (R164, R321). -/
def mrgRun (c : Nat) (w : AttnWord) : Run := fun s t =>
  let s := s.noteIgnored t [w.srb.toNat, w.salt.toNat]
  let k := s.core c
  let r (n : BitVec 6) : Nat := k.adr n.toNat
  let out := k.desc w.out.toNat
  let (m, d) := (out.rows, out.cols)
  let code := firstCode [
    failIf (!out.ok || !attnFmt out || decide (d % 16 ≠ 0) || decide (d < 16) || decide (d > 256) || decide (w.marea = 0)
      || decide (r w.marea % 64 ≠ 0)) cDescriptor,
    s.attnTargets c t w out m d (r w.stat) (r w.sig)]
  if code ≠ 0 then (s, code) else
  let (s, parts, pc) := s.readParts t.ward (r w.marea) m d w.npart.toNat
  if pc ≠ 0 then (s, pc) else
  let res := mergeParts m d parts
  let free := s.freeCount
  let s := { s with freeCount := free + 2 * 131072 }
  let (s, k, held, ev) := s.finishRows { s.core c with acc := freeAccs free, accHeld := true } t w out d (r w.stat) res.rows
  let sig := if w.send = 1 then [Held.signal (s.signalPlace t.ward (r w.sig)).2 1] else []
  let blocks := s.ownBlocks c (out.ranges 0 m 0 d ++ (if w.stat = 0 then [] else [(r w.stat, 32 * m)]))
  let s := s.setCore c { k with held := k.held ++ held ++ sig, blocks := k.blocks ++ blocks }
  let s := s.raiseChain c t { chainEvents := res.events, finalEvents := ev }
  (s.orStatus c (rowBits res.rows + (if w.npart.toNat > 1 then 2 ^ 23 else 0) + (if res.lost then 2 ^ 16 else 0)), 0)

/-- ATTN.MRG (R164). -/
def execAttnMrg (c : Nat) (w : AttnWord) (s : State) : Out :=
  let held := match s.issuing c with
    | some _ => (s.core c).accHeld || s.blocked c ((s.core c).adr w.marea.toNat) 64
    | none => false
  s.issueUnless c 2 held (mrgOk w) (mrgRun c w)

/-! ### The merge of a split head at END (R162, R163) -/

/-- A part's release reaches its header: the count there rises, and the part that completes it merges: OUT and STAT
written, the signal made, the status bits of the completing tile. -/
def State.releasePart (s : State) (c : Nat) (t : TileCtx) (g : AttnMerge) : State :=
  let n := ((((s.task t.req t.task).map (·.merged)).getD []).filter fun p => p.1 = g.header).length + 1
  let s := s.modTask t.req t.task fun x => { x with merged := (g.header, t.kp) :: x.merged }
  let s := s.vwrite t.ward g.header (bytesOf 8 n ++ bytesOf 56 0)
  if n < g.parts then s else
  let (s, parts, code) := s.readParts t.ward g.header g.m g.d g.parts
  if code ≠ 0 then s.faultTask t.req t.task code t.idx else
  let res := mergeParts g.m g.d parts
  let (s, k, held, ev) := s.finishRows (s.core c) t g.w ({ s.core c with tile := some t }.descOf g.out) g.d g.stat res.rows
  let sig := if g.w.send = 1 then [Held.signal (s.signalPlace t.ward g.sig).2 1] else []
  let s := (s.setCore c { k with held := k.held ++ held ++ sig }).raiseChain c t { chainEvents := res.events, finalEvents := ev }
  s.orStatus c (rowBits res.rows + 2 ^ 23 + (if res.lost then 2 ^ 16 else 0))

end Sys2Proof.Machine
end

