-- ==== Sys2Proof/Machine/End.lean ====
section
/-! DEFINITION. END: the release of a tile (R35, R36, R90, R91, R137, R145, R162, R191, R216, R280). -/
namespace Sys2Proof.Machine

/-- R35, R36, R90, R191: the tile of core c ends well: outputs and status word released, partials of a split K handed
to the scheduler, references of its walks ended, the core idle; then a split head is merged where this part completes
it (R162), and the bindings of the tables written are looked at (R216). With the state, the tile's whole status word, the
merge's flags among it. -/
def State.released (s : State) (c : Nat) (t : TileCtx) : State × Nat :=
  let k := s.core c
  let s := k.refs.foldl (fun s r => s.releaseRef r) s
  let s := s.setCore c { excTask := k.excTask, ops := k.ops, issued := k.issued, streams := k.streams, engines := k.tags }
  let s := s.releaseHeld c t k.held
  let s := k.merges.foldl (fun s g => s.releasePart c t g) s
  let late := s.core c
  let s := s.setCore c { late with held := [], streams := [], status := 0, acc := [], blocks := [] }
  let s := s.releaseHeld c t late.held
  let status := k.status ||| late.status
  let s := s.countExc t.ward status
  let s := if k.touched.isEmpty then s else s.exportCheck t.ward
  (s.modTask t.req t.task fun x =>
    { x with released := t.idx :: x.released, status := Smap.put 0 x.status t.idx status,
             parts := if k.partials.isEmpty then x.parts else x.parts ++ [(t.idx / t.splitK, k.partials)] }, status)

/-- The state after the release of a tile. -/
def State.releaseTile (s : State) (c : Nat) (t : TileCtx) : State := (s.released c t).1

/-- Whether the flags of a tile trap its task (R91): INVALID, DIVZERO or OVERFLOW. -/
def trapped (t : TileCtx) (status : Nat) : Bool := t.trap && decide (status % 8 ≠ 0)

/-- R35, R310: whether an operation of the tile is on its way: an earlier instruction may still fault the tile. -/
def State.tileBusy (s : State) (c : Nat) (t : TileCtx) : Bool :=
  (s.core c).ops.any fun o => decide (o.task = (t.req, t.task)) && decide (o.tile = t.idx)

/-- END (R35, Table 12.3): it waits until every operation of its tile has completed; DESCRIPTOR with a deferred area open
(R137), ARITH_TRAP for a task that traps (R91), the flags of a merge that the release completes among those of the
tile, which is then discarded; else the tile's outputs are released. -/
def execEnd (c : Nat) (w : ScalarWord) (s : State) : Out :=
  s.issueUnless c 1 (s.heldFor c fun t => s.tileBusy c t) (w.ok false false false false false) fun s t =>
    let k := s.core c
    if k.deferred.isSome then (s, cDescriptor)
    else if trapped t k.status then (s, cArithTrap)
    else if trapped t (s.released c t).2 then (s, cArithTrap)
    else (s.releaseTile c t, 0)

end Sys2Proof.Machine
end

