-- ==== Sys2Proof/Machine/Gotar.lean ====
section
/-! DEFINITION. Gotar queues (R330 to R333, R338): doorbells, submission entries, RUN with its binding (R209), completion
entries, and the ring of signed management entries (R335, R336). -/
namespace Sys2Proof.Machine

/-! ### Queues -/

/-- A queue by its queue pair; number 0 is the management queue. -/
def State.gotar (s : State) (n : Nat) : Option Gotar := (s.host.queues.find? fun p => p.1 = n).map (·.2)

/-- The state with a queue changed. -/
def State.modGotar (s : State) (n : Nat) (f : Gotar → Gotar) : State :=
  { s with host := { s.host with queues := s.host.queues.map fun p => if p.1 = n then (p.1, f p.2) else p } }

/-- The state with a queue put in place. -/
def State.putGotar (s : State) (n : Nat) (q : Gotar) : State :=
  let rest := s.host.queues.filter fun p => p.1 ≠ n
  { s with host := { s.host with queues := (rest.filter fun p => p.1 < n) ++ [(n, q)] ++ rest.filter fun p => p.1 > n } }

/-- The state without a queue. -/
def State.dropGotar (s : State) (n : Nat) : State :=
  { s with host := { s.host with queues := s.host.queues.filter fun p => p.1 ≠ n } }

/-- A difference of two counts modulo 2^32. -/
def ahead (a b : Nat) : Nat := (a + 2 ^ 32 - b % 2 ^ 32) % 2 ^ 32

/-- R332: whether the completion ring has room for one more entry. -/
def Gotar.room (q : Gotar) : Bool := decide (ahead q.written q.cqHead < q.ec)

/-- A request leaves the scheduler. -/
def State.dropRequest (s : State) (r : Nat) : State := { s with requests := s.requests.filter fun x => x.id ≠ r }

/-- A completion handed to a queue, where it waits to be written; without a queue there is nothing to write it into
(R338, R344). -/
def State.complete (s : State) (n : Nat) (c : Completion) : State :=
  match s.gotar n with
  | some _ => s.modGotar n fun q => { q with waiting := q.waiting ++ [c] }
  | none => match c.req with | some r => s.dropRequest r | none => s

/-- PHASE of entry n of a ring of ec entries (Table 13.6). -/
def phaseOf (n ec : Nat) : Nat := if n / ec % 2 = 0 then 1 else 0

/-- Table 13.6. -/
def Completion.encode (c : Completion) (phase elapsed time : Nat) : List Byte :=
  bytesOf 8 (c.tag % 2 ^ 32 * 2 ^ 32 + c.sq % 2 ^ 16 * 2 ^ 16 + c.status % 2 ^ 8 * 2 ^ 8 + (if c.ignored then 128 else 0) + phase * 64)
    ++ bytesOf 8 (c.faultTask % 2 ^ 16 * 2 ^ 48 + c.faultTile % 2 ^ 24 * 2 ^ 24 + c.detail % 2 ^ 24)
    ++ bytesOf 8 elapsed ++ bytesOf 8 time

/-- The 32 bytes of a completion as entry n of its ring. A notice has no doorbell: its ELAPSED_NS is free. -/
def State.formEntry (s : State) (q : Gotar) (c : Completion) : State × List Byte :=
  let phase := phaseOf q.written q.ec
  if c.notice then
    let (s, x) := s.free
    (s, c.encode phase x.toNat s.time)
  else (s, c.encode phase (s.raw - c.began) s.time)

/-- The place in the completion ring, as a count, of the entry that is written next: a held entry that had been written
before keeps its place (R338). -/
def Gotar.place (q : Gotar) : Nat := if q.rewrite = 0 then q.written else (q.written + 2 ^ 32 - q.rewrite) % 2 ^ 32

/-- An entry's bytes written into the completion ring. -/
def State.postEntry (s : State) (n : Nat) (q : Gotar) (bs : List Byte) : State :=
  (s.post n { addr := q.cqAddr + q.place % q.ec * 32, rkey := q.cqRkey, data := bs, len := 32 }).modGotar n fun q =>
    if q.rewrite = 0 then { q with written := (q.written + 1) % 2 ^ 32 } else { q with rewrite := q.rewrite - 1 }

/-- An entry's bytes with the PHASE of its new place. -/
def rephase (q : Gotar) (bs : List Byte) : List Byte :=
  match bs with
  | b :: rest => BitVec.ofNat 8 (b.toNat / 128 * 128 + phaseOf q.place q.ec * 64) :: rest
  | [] => []

/-- COMPLETION_ENTRY_WRITE (R332, R338): the oldest completion of a queue is written into its ring where there is room;
a queue pair in error has it held in the device region instead, up to EC entries. -/
def execCompletionEntryWrite (qpn : Nat) (s : State) : Out :=
  match s.gotar qpn, s.qp qpn with
  | some q, some p =>
    let gone (s : State) (c : Completion) : State := match c.req with | some r => s.dropRequest r | none => s
    if p.state = .rts then
      if (!q.room && decide (q.rewrite = 0)) || !s.linkUp 0 then .next s else
      match q.heldEntries, q.waiting with
      | bs :: rest, _ => .next ((s.postEntry qpn q (rephase q bs)).modGotar qpn fun q => { q with heldEntries := rest })
      | [], c :: rest =>
        let (s, bs) := s.formEntry q c
        .next (gone ((s.postEntry qpn q bs).modGotar qpn fun q => { q with waiting := rest }) c)
      | [], [] => .next s
    else if p.state = .error then
      match q.waiting with
      | c :: rest =>
        if q.heldEntries.length ≥ q.ec then .next s else
        let (s, bs) := s.formEntry q c
        .next (gone (s.modGotar qpn fun q => { q with waiting := rest, heldEntries := q.heldEntries ++ [bs] }) c)
      | [] => .next s
    else .next s
  | _, _ => .next s

/-- A queue pair moves to ERROR (R329, R338): completions that were not acknowledged are held in their order, and
nothing of it stays on its way. -/
def State.qpError (s : State) (n : Nat) : State :=
  match s.qp n with
  | none => s
  | some p =>
    let lost := p.unacked.filter fun m => decide (m.tag = 0)
    let s := s.modQp n fun p => { p with state := .error, unacked := [], unsent := 0, rnrWait := false }
    let s := if n = 0 then s.wr .hostQp0Cfg_STATE 0 2 else s
    s.modGotar n fun q => { q with heldEntries := lost.map (·.data) ++ q.heldEntries, rewrite := q.rewrite + lost.length }

/-! ### Signed management entries (R335, R336) -/

/-- SHA-512 as bytes. -/
def digest (bs : List Byte) : List Byte := bytesOf 64 (Config.sha512 bs).toNat

/-- Entry n of the management window. -/
def State.mgmtEntry (s : State) (n : Nat) : List Byte :=
  (List.range 512).map fun i => Smap.get 0 s.host.mgmtRing (n % 2048 * 512 + i)

/-- Bytes [lo, lo + n) of a list. -/
def sliceOf (bs : List Byte) (lo n : Nat) : List Byte := (bs.drop lo).take n

/-- Codes of Tables 13.9 and 14.1. -/
def mgmtCodes : List Nat :=
  [0x01, 0x02, 0x03, 0x04, 0x10, 0x11, 0x12, 0x13, 0x14, 0x15, 0x16, 0x20, 0x30, 0x40, 0x41, 0x42, 0x43, 0x44, 0x45]

/-- The key that an entry is verified under: the owner's, or in an unowned device the one that OWNER_SET brings
(R358). -/
def State.mgmtKey (s : State) (e : List Byte) : Option (List Byte) :=
  match s.sec.ownerKey with
  | some k => some k
  | none => if ofBytes (e.take 2) = 0x43 then some (sliceOf e 24 132) else none

/-- R336: 0 for an entry that is accepted, 1 for its signature, 2 for its sequence. -/
def State.mgmtCheck (s : State) (e : List Byte) : Nat :=
  let signed := match s.mgmtKey e with
    | some k => Config.ecdsaVerify k (digest s.sec.identityPub ++ e.take 380) (e.drop 380)
    | none => false
  if !signed then 1
  else if ofBytes (sliceOf e 8 8) ≠ s.cycle ∨ ofBytes (sliceOf e 16 8) ≠ s.rd .hostMgmtStat_NEXT_SEQ then 2 else 0

/-- Whether the device has made its ready report (R434). -/
def State.isReady (s : State) : Bool := match s.boot.phase with | .ready => true | _ => false

/-- The doorbell time of the entry with index n. -/
def Gotar.began (q : Gotar) (n now : Nat) : Nat :=
  ((q.announced.find? fun x => decide (ahead x.1 (n + 1) < 2 ^ 31)).map (·.2)).getD now

/-- The queue with entry n taken. -/
def Gotar.took (q : Gotar) : Gotar :=
  let n := (q.taken + 1) % 2 ^ 32
  { q with taken := n, announced := q.announced.filter fun x => decide (0 < ahead x.1 n) && decide (ahead x.1 n < 2 ^ 31) }

/-- R336: the next management entries are verified in ring order while no command is in hand: an accepted one becomes
the command in hand, any other is completed with PROTECTION, one with a reserved field or an unknown command with
DESCRIPTOR. fuel bounds the entries. -/
def State.nextMgmt : Nat → State → State
  | 0, s => s
  | k + 1, s =>
    match s.gotar 0 with
    | none => s
    | some q =>
      if s.host.mgmt.isSome || decide (q.taken = q.tail) || !s.isReady then s else
      let n := q.taken
      let e := s.mgmtEntry n
      let tag := ofBytes (sliceOf e 4 4)
      let began := q.began n s.raw
      let s := s.modGotar 0 Gotar.took
      let answer : Completion := { tag := tag, sq := n, began := began }
      match s.mgmtCheck e with
      | 0 =>
        let code := ofBytes (e.take 2)
        let s := s.wr .hostMgmtStat_NEXT_SEQ 0 (s.rd .hostMgmtStat_NEXT_SEQ + 1)
        if decide (code ∈ mgmtCodes) && decide (ofBytes (sliceOf e 2 2) = 0) && decide (ofBytes (sliceOf e 376 4) = 0) then
          let m : MgmtCmd := { index := n, code := code, tag := tag, params := wordsIn (sliceOf e 24 352), began := began }
          { s with host := { s.host with mgmt := some m } }
        else State.nextMgmt k (s.complete 0 { answer with status := cDescriptor })
      | d => State.nextMgmt k ((s.bump .hostMgmtStat_REJECTED).complete 0 { answer with status := cProtection, detail := d })

/-- A management command completes; the next entry is looked at. -/
def State.mgmtDone (s : State) (m : MgmtCmd) (status : Nat) (detail : Nat := 0) : State :=
  let s := s.complete 0 { tag := m.tag, sq := m.index, status := status, ignored := m.ignored, detail := detail, began := m.began }
  let mine := decide (s.host.mgmt.map (·.index) = some m.index)
  State.nextMgmt 2048 (if mine then { s with host := { s.host with mgmt := none } } else s)

/-! ### Doorbells (R331) -/

/-- One doorbell error of the host port. -/
def State.doorbellErr (s : State) : State := s.bump .hostPortStat_DOORBELL_ERR 0

/-- Whether a ward is being deleted (R344). -/
def State.deleting (s : State) (w : Nat) : Bool := ((s.ward w).map (·.deleting)).getD false

/-- SQ_TAIL written (R331): a value more than ES ahead, or behind, is a doorbell error; doorbells are cumulative. -/
def State.ringTail (s : State) (n v : Nat) : State :=
  match s.gotar n with
  | none => s.doorbellErr
  | some q =>
    if n ≠ 0 ∧ s.deleting q.ward then s
    else if ahead v q.taken > q.es then s.doorbellErr
    else if ahead v q.taken < ahead q.tail q.taken then s
    else
      let s := s.modGotar n fun q => { q with tail := v, announced := q.announced ++ [(v, s.raw)] }
      if n = 0 then State.nextMgmt 2048 s else s

/-- CQ_HEAD written (R331): it may not pass the entries written. -/
def State.ringHead (s : State) (n v : Nat) : State :=
  match s.gotar n with
  | none => s.doorbellErr
  | some q =>
    if n ≠ 0 ∧ s.deleting q.ward then s
    else if ahead v q.cqHead > ahead q.written q.cqHead then s.doorbellErr
    else s.modGotar n fun q => { q with cqHead := v }

/-- Whether the host port serves anything: from the ready report on (R450), also after a fatal stop (R396). -/
def State.hostServes (s : State) : Bool := s.isReady || decide (s.boot.phase = .fatal)

/-- Whether a queue pair of the host port takes requests. -/
def State.hostRts (s : State) (n : Nat) : Bool :=
  s.hostServes && s.linkUp 0 && ((s.qp n).map fun p => decide (p.state = .rts) && decide (p.port = 0)).getD false

/-- SQ_TAIL (R331). -/
def execSqTail (qpn : Nat) (v : BitVec 32) (s : State) : Out := Out.when (s.hostRts qpn) s (s.ringTail qpn v.toNat)

/-- CQ_HEAD (R331). -/
def execCqHead (qpn : Nat) (v : BitVec 32) (s : State) : Out := Out.when (s.hostRts qpn) s (s.ringHead qpn v.toNat)

/-! ### Submission entries (R333) -/

/-- A submission entry (Table 13.5), its index and the time of its doorbell. -/
structure SubEntry where
  index : Nat := 0
  began : Nat := 0
  ws : List Word := []
deriving DecidableEq, Repr

def SubEntry.word (e : SubEntry) (n : Nat) : Nat := (e.ws.getD n 0).toNat
def SubEntry.op (e : SubEntry) : Nat := bits (e.word 0) 63 56
def SubEntry.length (e : SubEntry) : Nat := bits (e.word 0) 52 32
def SubEntry.tag (e : SubEntry) : Nat := bits (e.word 0) 31 0
def SubEntry.ntask (e : SubEntry) : Nat := bits (e.word 2) 63 48
def SubEntry.nrecomp (e : SubEntry) : Nat := bits (e.word 2) 47 32

/-- Whether a reserved bit of an entry is set. -/
def SubEntry.reserved (e : SubEntry) : Bool :=
  decide (bits (e.word 0) 55 53 ≠ 0) || decide (bits (e.word 2) 31 0 ≠ 0) || (List.range 10).any fun i => decide (e.word (6 + i) ≠ 0)

/-- An entry completed with a status. -/
def State.endEntry (s : State) (n : Nat) (e : SubEntry) (status : Nat) : State :=
  s.complete n { tag := e.tag, sq := e.index, status := status, began := e.began }

/-- R333: the next entry of a queue, where its operation is one of those asked for: read and taken, completed at once
where it cannot be read (Table 9.2), else acted on. -/
def State.takeEntry (s : State) (n : Nat) (mine : Nat → Bool) (act : State → Gotar → SubEntry → State) : Out :=
  match s.gotar n with
  | none => .next s
  | some q =>
    if n = 0 ∨ q.taken = q.tail ∨ s.deleting q.ward ∨ (s.qp n).map (·.state) ≠ some .rts then .next s else
    let (t, bs, code) := s.vread q.ward (s.node * 2 ^ 52 + q.sqBase + q.taken % q.es * 128) 128
    let e : SubEntry := { index := q.taken, began := q.began q.taken s.raw, ws := wordsIn bs }
    if !mine e.op then .next s else
    let t := t.modGotar n Gotar.took
    .next (if code ≠ 0 then t.endEntry n e code else act t q e)

/-- SUBMISSION_NOP (R333): status 0; an entry whose operation is reserved has no row of its own and ends here with
DESCRIPTOR. -/
def execSubmissionNop (qpn : Nat) (s : State) : Out :=
  s.takeEntry qpn (fun op => decide (op = 0) || decide (op > 3)) fun s _ e =>
    s.endEntry qpn e (if e.op = 0 ∧ e.reserved = false then 0 else cDescriptor)

/-! ### RUN -/

/-- R38: the length bucket. -/
def bucketOf (len : Nat) : Nat := max 4 (bitLen (len - 1))

/-- R333, R38: the checks on a RUN entry itself. -/
def SubEntry.runCode (e : SubEntry) : Nat :=
  firstCode [
    failIf (e.reserved || decide (e.ntask = 0) || decide (e.word 1 % 64 ≠ 0) || decide (e.word 3 % 64 ≠ 0)
      || decide (e.word 4 % 16 ≠ 0) || decide (e.word 5 % 64 ≠ 0)
      || (decide (e.nrecomp ≠ 0) && (decide (e.word 3 = 0) || decide (e.word 4 = 0)))) cDescriptor,
    failIf (decide (e.length = 0) || decide (e.length > 1048576)) cLength]

/-- A binding block (Table 8.8) as a binding of a ward. -/
def bindingOf (ward : Nat) (ws : List Word) : Binding :=
  let w (n : Nat) : Nat := (ws.getD n 0).toNat
  { ward := ward, partner := bits (w 1) 31 24, handle := bits (w 1) 63 32, table := w 0, targetEnd := bits (w 1) 23 3,
    unbindEnd := if (w 1).testBit 2 then bits (w 1) 23 3 else 0, markerAddr := w 2, markerRkey := bits (w 3) 63 32, grantCap := bits (w 3) 31 14, stateArea := w 4 }

/-- Whether a reserved bit of a binding block is set. -/
def bindingReserved (ws : List Word) : Bool :=
  let w (n : Nat) : Nat := (ws.getD n 0).toNat
  decide (bits (w 1) 1 0 ≠ 0) || decide (bits (w 3) 13 0 ≠ 0) || [5, 6, 7].any fun n => decide (w n ≠ 0)

/-- The binding that is not ended with a partner and handle. -/
def State.sameBinding (s : State) (b : Binding) : Option Binding :=
  s.exporter.bindings.find? fun x => decide (x.partner = b.partner) && decide (x.handle = b.handle) && !x.ended

/-- R209: the code with which a binding block is refused. -/
def State.bindingCode (s : State) (b : Binding) (t : KvTab) (tc : Nat) (reserved : Bool) : Nat :=
  let old := s.sameBinding b
  let tok := (Keyway.of (Smap.get [] s.exporter.keyways (s.rd .expPartnerCfg_KEYWAY b.partner)) t.heads t.d).t
  let cap := ((old.map (·.grantCap)).getD b.grantCap) + 1
  firstCode [
    failIf (reserved || !t.export_ || decide (b.targetEnd = 0) || decide (b.targetEnd > 1048576)
      || (!t.ring && decide (b.targetEnd > 16 * t.pages)) || decide (ceilDiv b.targetEnd tok > cap) || decide (b.stateArea % 64 ≠ 0)
      || (match old with
          | some x => decide (x.table ≠ b.table) || decide (b.targetEnd < x.targetEnd)
          | none => false)) cDescriptor,
    tc,
    failIf (!s.partnerActive b.partner || decide (s.rd .expPartnerCfg_WARD b.partner ≠ b.ward)
      || (match old with | some x => decide (x.failed ≠ 0) | none => false)) cPartnerLost,
    failIf (old.isNone && decide ((s.exporter.bindings.filter Binding.live).length ≥ 8192)) cCapacity]

/-- R209: a binding created, or the TARGET_END of the one that exists raised: the state and its number. -/
def State.bindTo (s : State) (b : Binding) : State × Nat :=
  match s.sameBinding b with
  | some x =>
    (s.modBinding x.id fun y =>
      { y with targetEnd := b.targetEnd, unbindEnd := if y.unbindEnd = 0 then b.unbindEnd else y.unbindEnd,
               ends := if b.targetEnd = x.targetEnd then y.ends else y.ends ++ [b.targetEnd] }, x.id)
  | none =>
    let id := s.exporter.nextBinding
    let b := { b with id := id, ends := [b.targetEnd] }
    let s := { s with exporter := { s.exporter with nextBinding := id + 1, bindings := s.exporter.bindings ++ [b] } }
    (s.countBindings b.partner, id)

/-- R208, R209, R216: the binding of a RUN entry: the state, its number and TARGET_END, or the code of its refusal. -/
def State.runBinding (s : State) (ward addr : Nat) : State × Option (Nat × Nat) × Nat :=
  if addr = 0 then (s, none, 0) else
  let (s, bs, code) := s.vread ward addr 64
  if code ≠ 0 then (s, none, code) else
  let ws := wordsIn bs
  let b := bindingOf ward ws
  let (s, t, tc) := s.kvTab ward b.table
  let code := s.bindingCode b t tc (bindingReserved ws)
  if code ≠ 0 then (s, none, code) else
  let (s, id) := s.bindTo b
  let s := s.serve id
  let reached := (s.binding id).any fun x => decide (x.unbindEnd ≠ 0) && decide (x.unbindEnd ≤ x.lastAcked)
  (if reached then s.endBinding id else s, some (id, b.targetEnd), 0)

/-- The request of a RUN entry, waiting for its scheduler. -/
def SubEntry.request (e : SubEntry) (id qpn : Nat) (q : Gotar) (b : Option (Nat × Nat)) (done : Bool) : Request :=
  { id := id, qpn := qpn, sq := e.index, tag := e.tag, ward := q.ward, die := q.die, bucket := bucketOf e.length,
    tasks := (List.range e.ntask).map fun i => { addr := e.word 1 + 64 * i }, ntask := e.ntask, recompAddr := e.word 3,
    nrecomp := e.nrecomp, rangeRec := e.word 4, binding := b.map (·.1), bindingEnd := (b.map (·.2)).getD 0, markerDone := done,
    began := e.began }

/-- RUN (R333): an entry that passes its checks becomes a request of the home scheduler. -/
def execRun (qpn : Nat) (s : State) : Out :=
  s.takeEntry qpn (fun op => decide (op = 1)) fun s q e =>
    if e.runCode ≠ 0 then s.endEntry qpn e e.runCode else
    let (s, b, code) := s.runBinding q.ward (e.word 5)
    if code ≠ 0 then s.endEntry qpn e code else
    let done := match b with
      | some (id, te) => ((s.binding id).map fun x => decide (te ≤ x.lastAcked)).getD false
      | none => false
    let id := s.host.nextReq
    { s with requests := s.requests ++ [e.request id qpn q b done], host := { s.host with nextReq := id + 1 } }

end Sys2Proof.Machine
end

