-- ==== Sys2Proof/Machine/Dies.lean ====
section
/-! DEFINITION. The die-to-die links (R13, R14, R16, R396, R449). -/
namespace Sys2Proof.Machine

/-- The die of a window of Table 19.1: IO0, IO1, C0 to C3; a higher window is no die's, and lies on IO0. -/
def windowDie (w : Nat) : Nat := if w < 2 then 4 + w else if w < 6 then w - 2 else 4

/-- R449: whether the CSR bus, which starts on IO0, reaches a die's window. -/
def State.csrReach (s : State) (w : Nat) : Bool := !s.flag .logStat_FATAL || (dieRoute 4 (windowDie w)).all s.dieLinkUp

/-- DIE_LINK_CRC_RETRY (R16): the transfer is retried and counted, in a count that no register shows (log entry 147). -/
def execDieLinkCrcRetry (link : Nat) (s : State) : Out :=
  Out.when (s.dieLinkUp link) s
    { s with boot := { s.boot with dieLinkRetries := s.boot.dieLinkRetries.modify link (· + 1) } }

/-- DIE_LINK_DOWN (R396): the link retrains with its traffic held (State.dieHeld). -/
def execDieLinkDown (link : Nat) (s : State) : Out :=
  if s.dieLinkUp link = false then .next s else
  let n := s.boot.dieLinkDowns.getD link 0 + 1
  .next (({ s with boot := { s.boot with dieLinksUp := s.boot.dieLinksUp.set link false,
                                         dieLinkDowns := s.boot.dieLinkDowns.set link n } } : State).event 0x09 link 1 0xFFFF 0x20 n)

/-- Whether a link is down in operation. -/
def State.dieLinkRetrains (s : State) (link : Nat) : Bool := s.isReady && !s.dieLinkUp link

/-- DIE_LINK_RETRAIN_DONE (R396): held traffic resumes. -/
def execDieLinkRetrainDone (link : Nat) (s : State) : Out :=
  Out.when (s.dieLinkRetrains link) s { s with boot := { s.boot with dieLinksUp := s.boot.dieLinksUp.set link true } }

/-- R396: the device stops: every cluster halted without saving, nothing dispatched, FATAL set; requests that ran get no
completion entry. -/
def State.fatalStop (s : State) (link : Nat) : State :=
  let s := (List.range 192).foldl State.discardTile s
  let s := { s with requests := [], images := [], boot := { s.boot with phase := .fatal }, latch := { s.latch with out := 0 } }
  ((s.wr .logStat_FATAL 0 1).wr .sysStartStat_STATE 0 4).event 0x09 link 3 0xFFFF 0x24 0

/-- DIE_LINK_FAILED (R396): a retrain of a link that went down in operation has failed. -/
def execDieLinkFailed (link : Nat) (s : State) : Out := Out.when (s.dieLinkRetrains link) s (s.fatalStop link)

end Sys2Proof.Machine
end

