-- ==== Sys2Proof/Machine/Power.lean ====
section
/-! DEFINITION. The power manager (R362 to R383, R388): the estimate, the division of the cap, duties, frequencies and
HBM limits, AVSBus (R461, R462), droop, temperature and the thermal trip. -/
namespace Sys2Proof.Machine

/-! ### Whether it runs -/

/-- The step of a start in progress; 0 outside a start. -/
def StartPhase.stepNo : StartPhase → Nat
  | .step n => n
  | _ => 0

/-- Whether the device controller and the power manager are up: from the end of step 4 (R427), until the device stops. -/
def State.managed (s : State) : Bool :=
  s.sclk && (decide (4 < s.boot.phase.stepNo) || s.isReady)

/-! ### The model (R366, R367) -/

/-- Entry n of a list, the last where it is shorter. -/
def atOrLast (l : List Nat) (n : Nat) : Nat := l.getD (min n (l.length - 1)) 0

/-- Leakage of unit u in mW at a reading in quarter degrees and a frequency code's voltage point. -/
def Power.leakOf (p : Power) (u reading code : Nat) : Nat :=
  let t := p.leak.getD u []
  atOrLast (t.getD (min (reading / 4) (t.length - 1)) []) code

/-- Power in mW that the model predicts for cluster g at a code and duty. -/
def Power.predict (p : Power) (temps : List Nat) (g code duty : Nat) : Rat :=
  (p.leakOf g (temps.getD g 0) code : Rat) + (atOrLast (p.dyn.getD g []) code : Rat) * duty / 16

/-- The reading of the other logic of a die (IO0, IO1, C0 to C3): its hottest sensor (R379). -/
def dieReading (temps : List Nat) (die : Nat) : Nat :=
  let l := if die < 2 then (temps.drop (24 + 2 * die)).take 2 else (temps.drop (6 * (die - 2))).take 6
  l.foldl max 0

/-- The weight of counter n of a die, in 1/16 pJ (R366, R367). -/
def State.weight (s : State) (die n : Nat) : Nat :=
  if s.was .pwrCfg_WEIGHT_SRC ≠ 0 then s.was .pwrWeight_WEIGHT (die * 64 + n) else (s.power.weights.getD die []).getD n 0

/-- Energy in 1/16 pJ of counters [lo, lo + n) of a die (Table 15.3). -/
def State.countEnergy (s : State) (counts : List (List Nat)) (die lo n : Nat) : Nat :=
  ((List.range n).map fun i => s.weight die (lo + i) * (counts.getD die []).getD (lo + i) 0).foldl (· + ·) 0

/-- Leakage energy in 1/16 pJ of cluster g over a window of tw ns: at each point for the time that it held it (R388). -/
def State.leakEnergy (s : State) (temps : List Nat) (tw g : Nat) : Nat :=
  let leak (code : Nat) : Nat := s.power.leakOf g (temps.getD g 0) code
  let (_, left, e) := (s.cluster g).points.foldl (fun (a : Nat × Nat × Nat) p =>
    let d := min a.2.1 (p.2 - a.1)
    (p.2, a.2.1 - d, a.2.2 + 16 * d * leak p.1)) (s.power.windowAt, tw, 0)
  e + 16 * left * leak (s.rd .clkClusterStat_FREQ g)

/-- What a window's counters have counted, as Table 15.3 lays them out: 20 on each I/O die and 48 on each C-die. IO0 has
five ports, and its sixth slot stays at zero (R365). -/
def tableCounts (counts : List (List Nat)) : List (List Nat) :=
  (List.range 6).map fun d => (List.range (if d < 2 then 20 else 48)).map fun i =>
    if d = 0 ∧ (i = 10 ∨ i = 11) then 0 else (counts.getD d []).getD i 0

/-- The counters after a window (log entry 168). -/
def Power.count (p : Power) (counts : List (List Nat)) : Power :=
  { p with counters := (p.counters.zip counts).map fun x => (x.1.zip x.2).map fun y => y.1 + y.2 }

/-- The energies of a window: of each cluster, of each stack, of each I/O port slot (payload bytes, then energy by payload
and by lane-active cycles), and of the link, fixed and memory classes (R366). -/
structure WindowEnergy where
  clusters : List Nat := []
  hbms : List Nat := []
  ports : List (Nat × Nat × Nat) := []
  link : Nat := 0
  fixed : Nat := 0
  memory : Nat := 0
deriving DecidableEq, Repr

/-- R366, Table 15.3. Die 0 is IO0, 1 IO1, 2 + d C-die d. -/
def State.windowEnergy (s : State) (counts : List (List Nat)) (temps : List Nat) (tw : Nat) : WindowEnergy :=
  let sum (l : List Nat) : Nat := l.foldl (· + ·) 0
  let cdies := [2, 3, 4, 5]
  let hbms := cdies.map fun d => s.countEnergy counts d 43 5
  let ports := [0, 1].flatMap fun d => (List.range 6).map fun p =>
    ((counts.getD d []).getD (2 * p) 0, s.countEnergy counts d (2 * p) 1, s.countEnergy counts d (2 * p + 1) 1)
  let link := sum (cdies.map fun d => s.countEnergy counts d 42 1) + sum ([0, 1].map fun d => s.countEnergy counts d 0 17)
  let rest := sum ((List.range 6).map fun d => 16 * tw * s.power.leakOf (24 + d) (dieReading temps d) 0)
  let fixed := sum ([0, 1].map fun d => s.countEnergy counts d 17 3) + rest
  let clusters := (List.range 24).map fun g => s.leakEnergy temps tw g + s.countEnergy counts (2 + g / 6) (7 * (g % 6)) 7
  { clusters := clusters, hbms := hbms, ports := ports, link := link, fixed := fixed, memory := sum hbms }

/-- Mean power in mW of an energy in 1/16 pJ over tw ns. -/
def meanPower (e tw : Nat) : Rat := (e : Rat) / (16 * tw)

/-! ### Energy of wards (R382, R383) -/

/-- An energy credited to a ward. -/
def State.credit (s : State) (w e : Nat) : State :=
  let add (l : List (Nat × Nat)) : List (Nat × Nat) := Smap.put 0 l w (Smap.get 0 l w + e)
  { s with power := { s.power with stepEnergy := add s.power.stepEnergy, totalEnergy := add s.power.totalEnergy } }

/-- The same where some ward holds the unit. -/
def State.creditTo (s : State) (w : Option Nat) (e : Nat) : State :=
  match w with
  | some w => if s.wardActive w then s.credit w e else s
  | none => s

/-- A free part of an energy, none where a condition fails (log entry 2). -/
def State.partOf (s : State) (b : Bool) (e : Nat) : State × Nat :=
  if b then let (s, w) := s.free; (s, w.toNat % (e + 1)) else (s, 0)

/-- A cluster's energy: to the ward to which it is assigned, or parted where that has changed in the window; that of a
clearing to none. How the counters stood at the boundary and what a clearing took are free values (log entries 2 and 168). -/
def State.creditCluster (s : State) (g e : Nat) : State :=
  let c := s.cluster g
  let (s, clearing) := s.partOf c.wiped e
  let e := e - clearing
  let (s, before) := s.partOf c.earlier.isSome e
  (s.creditTo (c.earlier.getD none) before).creditTo c.assigned (e - before)

/-- An energy parted among the wards in proportion to their shares of a stack's accesses or a port's payload, of which the
device's own traffic has one too (R382). No register counts the shares: free values (log entries 2 and 168). -/
def State.shareOut (s : State) (e : Nat) : State :=
  let (s, own) := s.free
  let (s, parts) := s.wards.foldl (fun (a : State × List (Nat × Nat)) w =>
    let (s, x) := a.1.free
    (s, a.2 ++ [(w.id, x.toNat)])) (s, [])
  let total := parts.foldl (fun n x => n + x.2) own.toNat
  parts.foldl (fun s x => s.credit x.1 (e * x.2 / total)) s

/-- The energy of a port slot: the idle link's part belongs to no ward, nor anything of a port that carried no payload. -/
def State.creditPort (s : State) (p : Nat × Nat × Nat) : State :=
  if p.1 = 0 then s else
  let (s, idle) := s.partOf true p.2.2
  s.shareOut (p.2.1 + (p.2.2 - idle))

/-- mJ with 10 fraction bits of an energy in 1/16 pJ. -/
def energyCode (e : Nat) : Nat := e * 64 / 10 ^ 9

/-- R382: the window's energies credited. -/
def State.creditAll (s : State) (e : WindowEnergy) : State :=
  let s := (List.range 24).foldl (fun s g => s.creditCluster g (e.clusters.getD g 0)) s
  let s := e.ports.foldl State.creditPort (e.hbms.foldl State.shareOut s)
  let s := s.wards.foldl (fun s w => s.wr .wrdEnergy_TOTAL w.id (energyCode (Smap.get 0 s.power.totalEnergy w.id))) s
  { s with clusters := s.clusters.map fun c => { c with earlier := none, points := [], wiped := false } }

/-! ### The division (R369, R370) -/

/-- The ward to which cluster g is assigned in the step; at a window end in the very cycle of a declared boundary, the one
that the new step gives it (R388). -/
def State.wardOf (s : State) (g : Nat) : Option Nat :=
  let c := s.cluster g
  let gone (w : Nat) : Bool := s.deleting w
  if s.latch.declared && decide (s.latch.ran = 0) && decide (g ∈ s.latch.unseen) then
    c.next.getD (if (c.assigned.map gone).getD false then none else c.assigned)
  else c.assigned

/-- The floor of cluster g in mW: at 0.40 GHz and duty 1/16, or its leakage where it is gated (R364, R369). -/
def State.floorOf (s : State) (temps : List Nat) (g : Nat) : Rat :=
  if (s.wardOf g).isSome then s.power.predict temps g 0 1
  else (s.power.leakOf g (temps.getD g 0) (s.rd .clkClusterStat_FREQ g) : Rat)

/-- A sum of rationals. -/
def ratSum (l : List Rat) : Rat := l.foldl (· + ·) 0

/-- Clusters of a ward. -/
def State.clustersOf (s : State) (w : Nat) : List Nat := (List.range 24).filter fun g => decide (s.wardOf g = some w)

/-- The wards that hold clusters. -/
def State.holders (s : State) : List Ward := s.wards.filter fun w => !(s.clustersOf w.id).isEmpty

/-- R369: what memory is granted and what compute keeps, in mW, and whether memory stands at its lowest limit. Mm_min is
the memory power at the lowest HBM limit, which no rule computes: a free value (log entry 2). -/
def State.divide (s : State) (temps : List Nat) (link fixed mem : Rat) : State × Rat × Rat × Bool :=
  let cap : Rat := 1000 * s.was .pwrCap_WATTS
  let lim := s.was .pwrCfg_MEM_LIMIT_W
  let mm := if lim > 0 then min mem (1000 * lim : Rat) else mem
  let f := ratSum ((List.range 24).map (s.floorOf temps))
  let r := max f (1000 * s.was .pwrCfg_COMPUTE_RESERVE_W : Rat)
  if cap - link - fixed - mm < r then
    let (s, w) := s.free
    let least : Rat := (w.toNat % 2 ^ 20 : Nat)
    let mm := max (cap - link - fixed - r) least
    (s, mm, cap - link - fixed - mm, decide (mm = least))
  else (s, mm, cap - link - fixed - mm, false)

/-- R370: the budget of each ward in mW. -/
def State.budgets (s : State) (temps : List Nat) (b : Rat) : List (Nat × Rat) :=
  let f := ratSum ((List.range 24).map (s.floorOf temps))
  let ws := s.holders
  let sum := max 256 ((ws.map (·.powerFrac)).foldl (· + ·) 0)
  ws.map fun w => (w.id, ratSum ((s.clustersOf w.id).map (s.floorOf temps)) + (b - f) * (w.powerFrac : Rat) / (sum : Nat))

/-- b_c of cluster g. -/
def State.budgetOf (s : State) (bs : List (Nat × Rat)) (g : Nat) : Rat :=
  match s.wardOf g with
  | some w => (((bs.find? fun x => x.1 = w).map (·.2)).getD 0) / (s.clustersOf w).length
  | none => 0

/-! ### Enforcement (R372 to R375, R380) -/

/-- The greatest of [0, n) that passes a test, 0 where none does. -/
def greatest (n : Nat) (f : Nat → Bool) : Nat := ((List.range n).reverse.find? f).getD 0

/-- The code to which temperature holds cluster g after this window (R380). -/
def State.thermCapOf (s : State) (temps : List Nat) (g : Nat) : Nat :=
  let t := max (temps.getD g 0) (dieReading temps (if g < 12 then 0 else 1))
  let target := 4 * s.was .pwrThermCfg_TARGET_C
  if t ≥ target then s.power.newTarget.getD g (s.rd .clkClusterStat_TARGET g) - 1
  else if t < target - 8 then 28
  else s.power.thermCap.getD g 28

/-- DUTY code, TARGET and LIMIT of cluster g at a window end; one that no ward holds keeps its point (R364). -/
def State.settings (s : State) (temps : List Nat) (b : Rat) (cap g : Nat) : Nat × Nat × Nat :=
  let k := s.rd .clkClusterStat_FREQ g
  if (s.wardOf g).isNone then (s.rd .clkClusterStat_DUTY g, k, 0) else
  let duty := greatest 16 fun d => decide (s.power.predict temps g k (d + 1) ≤ b)
  let hold := decide (s.was .clkClusterCfg_HOLD g ≠ 0)
  let fmax := if hold then 28 else s.was .clkClusterCfg_FMAX g
  let best (top : Nat) : Nat :=
    if hold then min k top else greatest (min fmax top + 1) fun x => decide (s.power.predict temps g x 16 ≤ b)
  let t := best (min 28 cap)
  let limit := if t = 28 then 0 else if t < best 28 then 2 else if hold then 0 else if t = fmax then 3 else 1
  (duty, t, limit)

/-- R375: whether every cluster is at its floor and every stack at 2/16. A cluster under HOLD is at its floor at duty
1/16. -/
def State.atFloor (s : State) : Bool :=
  (List.range 24).all (fun g => (s.wardOf g).isNone || (decide (s.rd .clkClusterStat_DUTY g = 0)
    && (decide (s.rd .clkClusterStat_FREQ g = 0) || decide (s.was .clkClusterCfg_HOLD g ≠ 0))))
    && s.hbm.limits.all fun l => decide (l ≤ 2)

/-- R374: new HBM limits in sixteenths of a stack's peak: 16 where memory gets what it draws, 2 at the lowest; between, no
rule gives the number, and it is a free value (log entry 2). -/
def State.hbmLimits (s : State) (mm mem : Rat) (lowest : Bool) : State × List Nat :=
  if mem ≤ mm then (s, [16, 16, 16, 16])
  else if lowest then (s, [2, 2, 2, 2])
  else [0, 1, 2, 3].foldl (fun (a : State × List Nat) _ =>
    let (s, w) := a.1.free
    (s, a.2 ++ [2 + w.toNat % 14])) (s, [])

/-- A power in mW as a register shows it, in W. -/
def wattsCode (width : Nat) (x : Rat) : Nat := satN width (x / 1000).floor.toNat

/-- The highest of some readings, and its sensor. -/
def hottest (temps : List Nat) : Nat × Nat :=
  let top := temps.foldl max 0
  (top, (temps.findIdx? fun t => t = top).getD 0)

/-- R380: a sensor at the alert level sets THERM_ALERT, with an entry where it was clear. -/
def State.thermAlert (s : State) (level : Nat) (temps : List Nat) : State :=
  let (top, sensor) := hottest temps
  if top ≥ 4 * level ∧ s.flag .pwrStat_THERM_ALERT = false then
    (s.wr .pwrStat_THERM_ALERT 0 1).event 0x0A sensor 0 0xFFFF 0x31 top
  else s

/-- The readings of a window: the highest, and the alert (R380). -/
def State.noteTemps (s : State) (temps : List Nat) : State :=
  let (top, sensor) := hottest temps
  ((s.wr .pwrThermStat_HOTTEST 0 (satN 10 top)).wr .pwrThermStat_SENSOR 0 sensor).thermAlert (s.was .pwrThermCfg_ALERT_C) temps

/-- R375: the cap could not be met: one entry in each step. -/
def State.noteUnmet (s : State) (est : Nat) : State :=
  let step := some (s.rd .clkStepStat_STEP_COUNT)
  let s := s.wr .pwrStat_CAP_UNMET 0 1
  if s.power.unmetStep = step then s
  else { s with power := { s.power with unmetStep := step } }.event 0x0A 0xFFFF 0 0xFFFF 0x30 est

/-- What an operating second keeps of a window (R407, R409). -/
def Power.noteWindow (p : Power) (temps freqs : List Nat) (est : Nat) : Power :=
  let old (i : Nat) : Nat := p.secTemp.getD i 0
  let now := [2, 3, 4, 5, 0, 1].mapIdx fun i d => max (old i) (dieReading temps d)
  { p with readings := temps, secWindows := p.secWindows + 1, secEst := p.secEst + est, secMax := max p.secMax est,
           secTemp := now, secFreq := freqs, windows := p.windows + 1 }

/-- R366 to R375, R380, R382 at the end of a window. Registers written in this very cycle count in the next window (R388). -/
def State.windowEnd (s : State) (counts : List (List Nat)) (temps : List Nat) : State :=
  let tw := 1000 * 2 ^ s.power.windowCode
  let counts := tableCounts counts
  let s := s.noteTemps temps
  let e := s.windowEnergy counts temps tw
  let link := meanPower e.link tw
  let fixed := meanPower e.fixed tw
  let mem := meanPower e.memory tw
  let comp := ratSum (e.clusters.map fun x => meanPower x tw)
  let est := link + fixed + mem + comp
  let (s, mm, b, lowest) := s.divide temps link fixed mem
  let bs := s.budgets temps b
  let caps := (List.range 24).map (s.thermCapOf temps)
  let set := (List.range 24).map fun g => s.settings temps (s.budgetOf bs g) (caps.getD g 28) g
  let (s, hbm) := s.hbmLimits mm mem lowest
  let unmet := decide (est > 1000 * s.was .pwrCap_WATTS) && s.atFloor
  let s := [(Fld.pwrStat_EST_W, est), (.pwrStat_COMPUTE_W, b), (.pwrStat_LINK_W, link), (.pwrStat_MEM_W, mm), (.pwrStat_FIXED_W, fixed)].foldl
    (fun s x => s.wr x.1 0 (wattsCode x.1.width x.2)) s
  let s := if set.any fun x => decide (x.2.2 = 2) then s.bump .pwrThermStat_LIMITED_WINDOWS else s
  let s := if unmet then s.noteUnmet (wattsCode 12 est) else s
  let freqs := (List.range 24).map fun g => if (s.wardOf g).isNone then 29 else s.rd .clkClusterStat_FREQ g
  let p := (s.power.count counts).noteWindow temps freqs (s.rd .pwrStat_EST_W)
  let sums := bs.foldl (fun l x => Smap.put 0 l x.1 (Smap.get 0 l x.1 + x.2)) p.budgetSum
  let p := { p with newDuty := set.map (·.1), newTarget := set.map (·.2.1), newLimits := set.map (·.2.2), newHbm := hbm, due := true,
                    thermCap := caps, budgetSum := sums, windowCode := s.was .pwrCfg_WINDOW, windowAt := s.raw }
  { s with power := p }.creditAll e

/-! ### The thermal trip (R381, R417) -/

/-- The trip level, 105 °C, in quarter degrees. -/
def tripLevel : Nat := 420

/-- R381: THERMTRIP_N low, the clocks of clusters, fabric and memory stopped, the event recorded. SCLK keeps running for
the log and the journal (R405, R417). -/
def State.trip (s : State) (sensor reading : Nat) : State :=
  let s := { s.halted with boot := { s.boot with phase := .tripped, thermtrip := true } }
  s.event 0x0A sensor 3 0xFFFF 0x32 reading

/-- THERMAL_TRIP (R381): a reading of 105 °C or more. During self-test the trip ends the start (R438). -/
def execThermalTrip (sensor reading : Nat) (s : State) : Out :=
  Out.when (s.managed && decide (reading ≥ tripLevel)) s (s.trip sensor reading)

/-- ESTIMATION_WINDOW_END (R366 to R375): the counters and readings of the window; where one reads 105 °C or more the
device trips and nothing of the window is computed (R388). -/
def execEstimationWindowEnd (counts : List (List Nat)) (temps : List Nat) (s : State) : Out :=
  if s.managed = false then .next s else
  match temps.findIdx? fun t => decide (t ≥ tripLevel) with
  | some n => .next (s.trip n (temps.getD n 0))
  | none => .next (s.windowEnd counts temps)

/-! ### Frequencies and voltages (R362, R363, R462) -/

/-- LIMIT as it reads: 4 while a droop holds a step (R377). -/
def State.showLimit (s : State) (g : Nat) : State :=
  let held := decide ((s.cluster g).droop ≠ .none) && decide (s.rd .clkClusterStat_FREQ g ≠ s.rd .clkClusterStat_TARGET g)
  s.wr .clkClusterStat_LIMIT g (if held then 4 else s.power.limits.getD g 0)

/-- Voltage point of cluster g at a code, in mV. -/
def State.volt (s : State) (g code : Nat) : Nat := atOrLast (s.power.volts.getD g []) code

/-- R363: VDD_C that a die needs: 30 mV above the highest point that a cluster holds or steps towards, the next step's
point included. -/
def State.needVdd (s : State) (die : Nat) : Nat :=
  30 + ((List.range 6).map fun j =>
    let g := 6 * die + j
    let k := s.rd .clkClusterStat_FREQ g
    let t := s.rd .clkClusterStat_TARGET g
    max (max (s.volt g k) (s.volt g t)) (if k < t then s.volt g (k + 1) else 0)).foldl max 0

/-- A new VDD_C asked for over AVSBus where the need has changed. From the moment a lower one is asked for, the rail is
sure to hold no more than that until the regulator reports it settled. -/
def State.askVdd (s : State) (die : Nat) : State :=
  let d := s.die die
  let v := s.needVdd die
  if d.vddTarget = v then s
  else s.setDie die { d with vdd := min d.vdd v, vddTarget := v, avsPending := !d.avsRetry, avsTries := 0 }

/-- BUDGETS_IN_FORCE (R372, R374): duties, targets and HBM limits of the last window reach clusters and controllers. -/
def execBudgetsInForce (s : State) : Out :=
  let p := s.power
  if p.due = false ∨ s.managed = false then .next s else
  let s := { s with power := { p with due := false, limits := p.newLimits }, hbm := { s.hbm with limits := p.newHbm } }
  let s := (List.range 24).foldl (fun s g =>
    let s := s.wr .clkClusterStat_DUTY g (p.newDuty.getD g 15)
    (s.wr .clkClusterStat_TARGET g (p.newTarget.getD g 28)).showLimit g) s
  let s := s.wr .pwrStat_HBM_LIMITED 0 (if p.newHbm.any fun l => decide (l < 16) then 1 else 0)
  .next ((List.range 4).foldl State.askVdd s)

/-- Whether cluster g may step now: it has a ward, so that its clock runs (R364), no droop holds it, HOLD lets only
temperature lower it (R373), and a step upward has its supply. -/
def State.maySteps (s : State) (g : Nat) : Bool :=
  let k := s.rd .clkClusterStat_FREQ g
  let t := s.rd .clkClusterStat_TARGET g
  s.managed && (s.cluster g).assigned.isSome && (!s.flag .clkClusterCfg_HOLD g || decide (t < k ∧ s.power.limits.getD g 0 = 2)) && decide ((s.cluster g).droop = .none) && decide (k ≠ t)
    && (decide (t < k) || decide (s.volt g (k + 1) + 30 ≤ (s.die (dieOf g)).vdd))

/-- FREQUENCY_STEP_DONE (R362): one step of 25 MHz towards TARGET. -/
def execFrequencyStepDone (g : Nat) (s : State) : Out :=
  if s.maySteps g = false then .next s else
  let k := s.rd .clkClusterStat_FREQ g
  let k' := if k < s.rd .clkClusterStat_TARGET g then k + 1 else k - 1
  let c := s.cluster g
  let s := s.setCluster g { c with points := c.points ++ [(k, s.raw)] }
  let s := ((s.wr .clkClusterStat_FREQ g k').wr .clkClusterStat_VOLT_MV g (s.volt g k')).showLimit g
  .next (s.askVdd (dieOf g))

/-- AVSBUS_RESPONSE (R462): a regulator has settled at the voltage asked for, or a transaction has failed; after three
retries the device waits. -/
def execAvsbusResponse (die : Nat) (ok settled : Bool) (s : State) : Out :=
  let d := s.die die
  if s.managed = false ∨ d.avsPending = false then .next s
  else if ok then .next (if settled then s.setDie die { d with vdd := d.vddTarget, avsPending := false, avsTries := 0 } else s)
  else if d.avsTries < 3 then .next (s.setDie die { d with avsTries := d.avsTries + 1 })
  else .next (s.setDie die { d with avsPending := false, avsTries := 0, avsRetry := true })

/-- AVSBUS_RETRY_TIMER (R462). -/
def execAvsbusRetryTimer (die : Nat) (s : State) : Out :=
  let d := s.die die
  Out.when (s.managed && d.avsRetry) s (s.setDie die { d with avsRetry := false, avsPending := true, avsTries := 0 })

/-! ### Droop (R376 to R378) -/

/-- DROOP_DETECTED (R376): the cluster's clock is stretched; a step in progress is held. -/
def execDroopDetected (g : Nat) (s : State) : Out :=
  let c := s.cluster g
  if s.managed = false ∨ c.droop = .stretched then .next s else
  let s := s.setCluster g { c with droop := .stretched }
  .next (((s.wr .clkClusterStat_STRETCH g 1).bump .clkClusterStat_STRETCHES g).showLimit g)

/-- DROOP_STRETCH_END (R376): HOLD_CYCLES stretched cycles after the supply has recovered. -/
def execDroopStretchEnd (g : Nat) (s : State) : Out :=
  let c := s.cluster g
  Out.when (decide (c.droop = .stretched)) s
    (((s.setCluster g { c with droop := .recovering }).wr .clkClusterStat_STRETCH g 0).showLimit g)

/-- DROOP_RECOVERY_END (R377): held steps resume. -/
def execDroopRecoveryEnd (g : Nat) (s : State) : Out :=
  let c := s.cluster g
  Out.when (decide (c.droop = .recovering)) s ((s.setCluster g { c with droop := .none }).showLimit g)

end Sys2Proof.Machine
end

