-- ==== Sys2Proof/Machine/Log.lean ====
section
/-! DEFINITION. The trouble log (R399 to R402, R410) and what it announces. -/
namespace Sys2Proof.Machine

/-- Whether the device drives ALERT_N low (R375, R380, R400, Table 20.7): released while RESET_N is low, low in the stopped
states of R396 and R426, else under R400. -/
def State.alertLow (s : State) : Bool :=
  s.boot.resetN && (decide (s.boot.phase = .stopped) || decide (s.boot.phase = .fatal) || s.flag .logStat_ALERT
    || s.flag .pwrStat_CAP_UNMET || s.flag .pwrStat_THERM_ALERT || s.flag .logStat_FATAL)

/-- An entry written into the ring as number n = HEAD (R401). -/
def State.logWrite (s : State) (e : LogEntry) : State :=
  let n := s.rd .logStat_HEAD
  let bytes := e.encode s.cycle n
  let s := { s with log := { s.log with ring := Smap.put [] s.log.ring (n % 4096) bytes } }.wr .logStat_HEAD 0 (n + 1)
  let s := if s.rd .logCfg_ALERT_SEV ≤ e.sev then s.wr .logStat_ALERT 0 1 else s
  let s := if s.flag .logCfg_NOTIFY_EN && decide (2 ≤ e.sev) then { s with host := { s.host with notice := true } } else s
  if e.notable then s.auvOffer e bytes else s

/-- TROUBLE_LOG_WRITE (R401, R399, R400, R410): the oldest waiting entry is written. -/
def execTroubleLogWrite (s : State) : Out :=
  match s.log.queue with
  | [] => .next s
  | e :: rest => Out.when s.sclk s (({ s with log := { s.log with queue := rest } } : State).logWrite e)

/-- The ward of suppressed corrections: theirs where it is one, else none (R402). -/
def oneWard : List Nat → Nat
  | [] => 0xFFFF
  | w :: ws => if ws.all fun x => decide (x = w) then w else 0xFFFF

/-- CE_LIMIT_WINDOW_END (R402): the corrections suppressed in a second of device time become one REPEAT entry. -/
def execCeLimitWindowEnd (pc : Nat) (s : State) : Out :=
  let p := s.pc pc
  let t := s.modPc pc fun p => { p with ceLogged := false, ceCount := 0, ceWards := [] }
  Out.when s.sclk s (if p.ceCount = 0 then t
    else t.event 0x01 pc 1 (oneWard p.ceWards) 0x01 (p.ceLast % 2 ^ 39 + p.ceCount * 2 ^ 48) true)

/-- EVENT_NOTICE (R399): the waiting notice is written into queue pair 0's completion ring where there is room; it carries
HEAD as it stands now. -/
def execEventNotice (s : State) : Out :=
  match s.gotar 0 with
  | none => .next s
  | some q =>
    if s.host.notice = false ∨ s.hostRts 0 = false ∨ q.room = false ∨ q.heldEntries ≠ [] then .next s else
    let c : Completion := { tag := 0xFFFFFFFF, sq := 0xFFFF, detail := s.rd .logStat_HEAD, notice := true }
    let (s, bs) := s.formEntry q c
    .next (({ s with host := { s.host with notice := false } } : State).postEntry 0 q bs)

end Sys2Proof.Machine
end

