-- ==== Sys2Proof/Machine/Health.lean ====
section
/-! DEFINITION. Patrol scrub, the copies of the translation tables, and control-core faults (R237, R238, R397). -/
namespace Sys2Proof.Machine

/-- Units that a scrub pass of a pseudo-channel reads: all of its 4 GiB but the unused space of the device region (R233,
R237); how much of that region is in use, from its first byte on, is free (log entry 154). -/
def State.scrubUnits (s : State) (pc : Nat) : Nat :=
  if s.live pc && decide (s.rd .hbmPcMap_DEVICE_PC (pc / 32) = pc % 32) then
    (2 ^ 32 - 2 ^ 28) / 64 + Config.deviceUsed (pc / 32) % (2 ^ 28 / 64 + 1)
  else 2 ^ 32 / 64

/-- Whether the first scrub pass of this start has begun: step 6 has ended (R237). -/
def State.scrubs (s : State) : Bool := s.isReady || decide (6 < s.boot.phase.stepNo)

/-- SCRUB_DUE (R237): the next unit of a live pseudo-channel falls due. -/
def execScrubDue (pc : Nat) (s : State) : Out :=
  Out.when (s.scrubs && s.live pc && !(s.pc pc).passDone) s (s.modPc pc fun p => { p with scrubDue := true })

/-- HBM local address of a unit of a pseudo-channel. -/
def unitAddr (pc u : Nat) : Nat := hbmBase + pc * 2 ^ 32 + u * 64

/-- The unit that is due read and handled under Table 9.5. -/
def State.scrubUnit (s : State) (pc : Nat) (upsets : List Upset) : State :=
  let u := (s.pc pc).scrubPos
  let a := unitAddr pc u
  let s := s.upset (upsets.filter fun x => decide (a ≤ x.addr) && decide (x.addr < a + 64))
  let s := s.touch a 64
  let last := decide (u + 1 ≥ s.scrubUnits pc)
  (s.modPc pc fun p => { p with scrubDue := false, scrubPos := if last then 0 else u + 1, passDone := last }).passEnd (pc / 32)

/-- PATROL_SCRUB_READ (R237, R236, R391, R392). -/
def execPatrolScrubRead (pc : Nat) (upsets : List Upset) (s : State) : Out :=
  Out.when (s.scrubs && s.live pc && (s.pc pc).scrubDue) s (s.scrubUnit pc upsets)

/-- Whether a stack has a live pseudo-channel. -/
def State.liveStack (s : State) (stack : Nat) : Bool := decide (s.rd .hbmPcMap_LIVE stack ≠ 0)

/-- TRANSLATION_COPY_REBUILT (R238). -/
def execTranslationCopyRebuilt (stack : Nat) (s : State) : Out :=
  Out.when (s.hbm.rebuilding && s.liveStack stack && !decide (stack ∈ s.hbm.copies)) s
    { s with hbm := { s.hbm with copies := stack :: s.hbm.copies, rebuilding := decide (s.hbm.copies.length + 1 < 2) } }

/-- CONTROL_CORE_FAULT (R389, R397, Table 16.5): cause 1 parity, 2 walk time limit; the first excludes the cluster. -/
def execControlCoreFault (g cause : Nat) (s : State) : Out :=
  let c := s.cluster g
  Out.when (s.isReady && decide (g < 24) && !c.excluded && (decide (cause = 1) || decide (cause = 2))) s
    ((s.event 0x06 g 3 (c.ward.getD 0xFFFF) 0x11 cause).excludeCluster g)

end Sys2Proof.Machine
end

