-- ==== Sys2Proof/Machine/Move.lean ====
section
/-! DEFINITION. The move engine and ATOM (R246 to R250, R322, Tables 9.10 to 9.12). -/
namespace Sys2Proof.Machine

/-! ### Moves -/

/-- One row of a move. -/
structure MoveRow where
  src : Nat := 0
  dst : Nat := 0
  len : Nat := 0
deriving DecidableEq, Repr

/-- A range cut so that neither source nor destination crosses a 4 KiB boundary: k pieces at most. -/
def movePieces : Nat → MoveRow → List MoveRow
  | 0, _ => []
  | k + 1, r => if r.len = 0 then [] else
    let n := min r.len (min (4096 - r.src % 4096) (4096 - r.dst % 4096))
    { r with len := n } :: movePieces k { src := r.src + n, dst := r.dst + n, len := r.len - n }

def MoveRow.pieces (r : MoveRow) : List MoveRow := movePieces (2 * (r.len / 4096) + 4) r

/-- The code of one end of a move: translation, rights and route of every page (R246). -/
def State.endCode (s : State) (ward a n : Nat) (write : Bool) : Nat :=
  firstCode ((pieces a n).map fun p =>
    match s.locate ward p.1 write with
    | (0, .phys _) => 0
    | (0, .remote node _) => failIf (!s.reachable node) cUnreachable
    | (0, .window node _ _) => failIf (!s.reachable node) cUnreachable
    | (code, _) => code)

/-- The checks of R246 on rows. -/
def State.moveCode (s : State) (ward : Nat) (rows : List MoveRow) : Nat :=
  firstCode (rows.map fun r => firstCode [
    failIf (decide (r.src % 64 ≠ 0) || decide (r.dst % 64 ≠ 0) || decide (r.len % 64 ≠ 0)) cMisaligned,
    s.endCode ward r.src r.len false, s.endCode ward r.dst r.len true])

/-- Marks of a unit's words as a move carries them: true where a reader would meet damage (Table 9.2). -/
def State.unitDamage (s : State) (a : Nat) : List Bool :=
  if s.sound a 64 then [] else (List.range 8).map fun i => decide (s.wordDamage (a + 8 * i) ≠ 0)

/-- One 64-byte unit copied within the device (R247): damaged words arrive poisoned (Table 9.2). -/
def State.copyUnit (s : State) (src dst : Nat) : State :=
  let bad := s.unitDamage src
  let (s, bs, _) := s.read src 64
  let s := s.write dst bs
  (bad.mapIdx fun i b => (i, b)).foldl (fun s p =>
    if p.2 then s.write (dst + 8 * p.1) ((bs.drop (8 * p.1)).take 8) true else s) s

/-- The blocks of core c's own memory that a place of n bytes lies in (R322). -/
def ownBlocksAt (c : Nat) (l : Loc) (n : Nat) : List Nat :=
  match l with
  | .phys a => (match region a with | .core i off => if i = c then blocksOf off n else [] | _ => [])
  | _ => []

/-- The 4 KiB range that a place lies in (R15, R50). -/
def Loc.range (l : Loc) : Nat × Nat × Nat :=
  match l with
  | .phys a => (0, 0, a / 4096)
  | .remote n a => (1, n, a / 4096)
  | .window n w off => (2 + w, n, off / 4096)

/-- The ranges in which the data of core c's reads on their way will land (R50). -/
def State.landing (s : State) (c : Nat) : List (Nat × Nat × Nat) :=
  ((s.core c).ops.filter fun o => decide (o.op = opRead)).map fun o => o.dst.range

/-- Whether an access of a core to an address waits: for an earlier read's data to land in the same range (R50), or for a
die link on its route that retrains (R396). -/
def State.landsAt (s : State) (c ward a : Nat) (write : Bool) : Bool :=
  let l := (s.locate ward a write).2
  decide (l.range ∈ s.landing c) || s.dieHeld (dieOf (clusterOf c)) (s.placeDie l)

/-- Whether anything may make a core's accesses wait so. -/
def State.mayWait (s : State) (c : Nat) : Bool := !(s.landing c).isEmpty || (List.range 8).any fun l => !s.dieLinkUp l

/-- A piece whose source and destination translate whole. -/
def State.movePiece (s : State) (c ward : Nat) (src dst : Loc) (n : Nat) (r : RemoteOp) : State × Nat :=
  match src, dst with
  | .phys a, .phys b => ((List.range (n / 64)).foldl (fun s i => s.copyUnit (a + 64 * i) (b + 64 * i)) s, 0)
  | .phys a, l =>
    let pois := (List.range (n / 64)).map fun i => (s.unitDamage (a + 64 * i)).any fun b => b
    let (s, bs, _) := s.read a n
    s.farWrite c ward l bs pois { r with reads := ownBlocksAt c src n }
  | l, d =>
    let (s, node, a) := s.farAddr l
    s.coreRequest c { dest := node, op := opRead, ward := ward, len := n / 64, addr := a } 
      { r with via := l, dst := d, len := n, src := ward, writes := ownBlocksAt c d n }

/-- The transfer of rows in order, as the parts of move mv. -/
def State.moveRows (s : State) (c : Nat) (t : TileCtx) (mv : Nat) (rows : List MoveRow) : State × Nat :=
  (rows.flatMap MoveRow.pieces).foldl (fun (x : State × Nat) p =>
    if x.2 ≠ 0 then x else
    x.1.movePiece c t.ward (x.1.locate t.ward p.src false).2 (x.1.locate t.ward p.dst true).2 p.len (x.1.opFor c t mv))
    (s, 0)

/-- Whether rows touch a block of own memory that the scoreboard holds against them (R48, R322), a range outside it in which
data of an earlier move is yet to land (R50), or a place behind a die link that retrains (R396). -/
def State.rowsHeld (s : State) (c ward : Nat) (rows : List MoveRow) : Bool :=
  rows.any fun r => s.blocked c r.src r.len || s.blocked c r.dst r.len true ||
    (s.mayWait c && r.pieces.any fun p => s.landsAt c ward p.src false || s.landsAt c ward p.dst true)

/-- The row of a MOV or MOV.SIG. -/
def movOperands (k : Core) (w : MoveWord) : MoveRow :=
  { src := k.adr w.ra.toNat, dst := k.adr w.rb.toNat, len := (k.sreg w.rc.toNat).toNat }

/-- MOV's own check: a length of 0 or above 1 GiB (Table 12.16). -/
def movLenCode (r : MoveRow) : Nat := failIf (decide (r.len = 0) || decide (r.len > 2 ^ 30)) cDescriptor

/-- MOV (R246, R247). -/
def execMov (c : Nat) (w : MoveWord) (s : State) : Out :=
  let r := movOperands (s.core c) w
  s.issueUnless c 1 (s.heldFor c fun t => decide (r.len ≤ 2 ^ 30) && s.rowsHeld c t.ward [r]) (w.ok false true true false) fun s t =>
    let code := firstCode [movLenCode r, if r.len > 2 ^ 30 then 0 else s.moveCode t.ward [r]]
    if code ≠ 0 then (s, code) else s.moveRows c t (s.core c).newMove [r]

/-- The node that a place lies on. -/
def State.nodeOf (s : State) : Loc → Nat
  | .phys _ => s.node
  | .remote n _ => n
  | .window n _ _ => n

/-- R249: the code of a MOV.SIG's signal word: on the node of the data, not in a borrowed window. -/
def State.movSigCode (s : State) (ward : Nat) (r : MoveRow) (sig : Nat) : Nat :=
  let (code, l) := s.signalPlace ward sig
  let (dc, d) := s.locate ward r.dst true
  firstCode [code, failIf (decide (code = 0) && decide (dc = 0) && decide (s.nodeOf l ≠ s.nodeOf d)) cProtection]

/-- MOV.SIG (R249, R51): the increment follows the data. -/
def execMovSig (c : Nat) (w : MoveWord) (s : State) : Out :=
  let r := movOperands (s.core c) w
  let sig := (s.core c).adr w.rd.toNat
  s.issueUnless c 1 (s.heldFor c fun t => decide (r.len ≤ 2 ^ 30) && s.rowsHeld c t.ward [r])
    (w.ok true true true true && decide (w.imm ≠ 0)) fun s t =>
    let code := firstCode [movLenCode r, if r.len > 2 ^ 30 then 0 else s.moveCode t.ward [r], s.movSigCode t.ward r sig]
    if code ≠ 0 then (s, code) else
    let mv := (s.core c).newMove
    let (s, code) := s.moveRows c t mv [r]
    if code ≠ 0 then (s, code) else
    (s.signalAfter c t.ward (s.opFor c t mv) (s.signalPlace t.ward sig).2 w.imm.toNat, 0)

/-! ### Descriptor moves -/

/-- Table 9.11: a move descriptor. -/
structure MoveDesc where
  w : List Nat := []
deriving DecidableEq, Repr

def MoveDesc.word (d : MoveDesc) (n : Nat) : Nat := d.w.getD n 0
def MoveDesc.row (d : MoveDesc) : Nat := 64 * (bits (d.word 2) 63 48 + 1)
def MoveDesc.n1 (d : MoveDesc) : Nat := bits (d.word 2) 47 32 + 1
def MoveDesc.n2 (d : MoveDesc) : Nat := bits (d.word 2) 31 16 + 1
def MoveDesc.scatter (d : MoveDesc) : Bool := (d.word 2).testBit 0
def MoveDesc.list (d : MoveDesc) : Nat := d.word 7

/-- An address plus a signed multiple of a stride, modulo 2^64. -/
def strided (base i stride : Nat) : Nat := (base + i * stride) % 2 ^ 64

/-- The descriptor as a core that runs the tile sees it (R56). -/
def MoveDesc.at_ (d : MoveDesc) (k : Core) : MoveDesc :=
  { w := d.w.mapIdx fun i x => if i ≤ 1 ∨ i = 7 then k.here x else x }

/-- The rows of a MOV.S, inner dimension first (R247). -/
def MoveDesc.rowsS (d : MoveDesc) : List MoveRow :=
  (List.range d.n2).flatMap fun j => (List.range d.n1).map fun i =>
    { src := strided (strided (d.word 0) j (d.word 4)) i (d.word 3), dst := strided (strided (d.word 1) j (d.word 6)) i (d.word 5),
      len := d.row }

/-- The rows of a MOV.G for its indices; 0xFFFF_FFFF skips an entry. -/
def MoveDesc.rowsG (d : MoveDesc) (idx : List Nat) : List MoveRow :=
  ((idx.mapIdx fun i x => (i, x)).filter fun p => p.2 ≠ 0xFFFFFFFF).map fun p =>
    { src := strided (d.word 0) (if d.scatter then p.1 else p.2) (d.word 3),
      dst := strided (d.word 1) (if d.scatter then p.2 else p.1) (d.word 5), len := d.row }

/-- Strides that are not multiples of 64 (R246). -/
def MoveDesc.strideCode (d : MoveDesc) (g : Bool) : Nat :=
  failIf (decide (d.word 3 % 64 ≠ 0) || decide (d.word 5 % 64 ≠ 0) ||
    (!g && (decide (d.word 4 % 64 ≠ 0) || decide (d.word 6 % 64 ≠ 0))) || (g && decide (d.list % 64 ≠ 0))) cMisaligned

/-- A descriptor read: state, descriptor, code. -/
def State.readMoveDesc (s : State) (c a : Nat) : State × MoveDesc × Nat :=
  let code := firstCode [failIf (decide (a % 64 ≠ 0)) cMisaligned, failIf (!s.own c a 64) cNotLocal]
  if code ≠ 0 then (s, {}, code) else
  let (s, bs, d) := s.read (a % 2 ^ 52) 64
  (s, ({ w := (List.range 8).map (wordAt bs) } : MoveDesc).at_ (s.core c), firstCode [d, failIf (decide (bits (wordAt bs 2) 15 1 ≠ 0)) cDescriptor])

/-- MOV.S once decoded: ILLEGAL_INSTRUCTION while locked (R246). -/
def movSRun (c : Nat) (w : MoveWord) : Run := fun s t =>
  if t.unlocked = false then (s, cIllegal) else
  let (s, d, code) := s.readMoveDesc c ((s.core c).adr w.ra.toNat)
  if code ≠ 0 then (s, code) else
  let code := firstCode [d.strideCode false, s.moveCode t.ward d.rowsS]
  if code ≠ 0 then (s, code) else s.moveRows c t (s.core c).newMove d.rowsS

/-- MOV.S (R246). -/
def execMovS (c : Nat) (w : MoveWord) (s : State) : Out :=
  let a := (s.core c).adr w.ra.toNat
  let held := s.heldFor c fun t =>
    t.unlocked && s.own c a 64 && (s.blocked c a 64 || s.rowsHeld c t.ward (s.readMoveDesc c a).2.1.rowsS)
  s.issueUnless c 1 held (w.ok false false false false) (movSRun c w)

/-- MOV.G once decoded: N2 must be 0, and is checked as R246 says for a locked core. Beyond 4,096 entries the count is
out of its range. -/
def movGRun (c : Nat) (w : MoveWord) : Run := fun s t =>
  let (s, d, code) := s.readMoveDesc c ((s.core c).adr w.ra.toNat)
  if code ≠ 0 then (s, code)
  else if t.unlocked = false ∧ d.n2 ≠ 1 then (s, cIllegal)
  else if d.n2 ≠ 1 ∨ d.n1 > 4096 then (s, cDescriptor) else
  let code := firstCode [d.strideCode true, failIf (!s.own c d.list (4 * d.n1)) cNotLocal]
  if code ≠ 0 then (s, code) else
  let (s, bs, dmg) := s.read (d.list % 2 ^ 52) (4 * d.n1)
  let idx := (List.range d.n1).map fun i => ofBytes ((bs.drop (4 * i)).take 4)
  if dmg ≠ 0 then (s, dmg) else
  let code := firstCode [failIf (idx.any fun x => decide (x ≠ 0xFFFFFFFF) && decide (x ≥ d.word 4)) cIndexRange,
    s.moveCode t.ward (d.rowsG idx)]
  if code ≠ 0 then (s, code) else s.moveRows c t (s.core c).newMove (d.rowsG idx)

/-- The rows that a MOV.G's descriptor and list give, as they stand in memory. -/
def State.peekRowsG (s : State) (d : MoveDesc) : List MoveRow :=
  d.rowsG ((List.range d.n1).map fun i => s.peekN (d.list % 2 ^ 52 + 4 * i) 4)

/-- MOV.G (R246). -/
def execMovG (c : Nat) (w : MoveWord) (s : State) : Out :=
  let a := (s.core c).adr w.ra.toNat
  let held := s.heldFor c fun t =>
    let d := (s.readMoveDesc c a).2.1
    s.own c a 64 && (s.blocked c a 64 || (decide (d.n2 = 1) && decide (d.n1 ≤ 4096) && s.own c d.list (4 * d.n1) &&
      (s.blocked c d.list (4 * d.n1) || s.rowsHeld c t.ward (s.peekRowsG d))))
  s.issueUnless c 1 held (w.ok false false false false) (movGRun c w)

/-! ### ATOM -/

/-- R53, R245, R249: an ATOMIC on a local word: the old value, or the code of a damaged word, which stays unchanged. -/
def State.atomicAt (s : State) (a aop x y : Nat) : State × Nat × Nat :=
  let d := s.rmwDamage a 8
  let s := s.touchRmw a 8
  if d ≠ 0 then (s, 0, d) else
  let old := s.peekN a 8
  let new := if aop < 2 then (old + x) % 2 ^ 64 else if aop = 2 then x else if old = y then x else old
  (s.writeN a 8 new, old, 0)

/-- R249: whether an address on this node names reduction memory. -/
def inReduction (a : Nat) : Bool := match region (a % 2 ^ 52) with | .red _ _ => true | _ => false

/-- An ATOM of one kind once decoded (R249, R322): at once where the word is here, else an ATOMIC to its node; the
first unit carries the kind, the operand and the compare value (log entry 9). -/
def atomRun (c aop : Nat) (w : MoveWord) : Run := fun s t =>
  let k := s.core c
  let a := k.adr w.ra.toNat
  let x := (k.sreg w.rb.toNat).toNat
  let y := (k.sreg w.rc.toNat).toNat
  if a % 8 ≠ 0 then (s, cMisaligned)
  else if a / 2 ^ 52 = s.node ∧ inReduction a then (s, cProtection) else
  let (rc, _) := s.locate t.ward a false
  match s.locate t.ward a true with
  | (0, .phys l) =>
    if rc ≠ 0 then (s, rc) else
    let (s, old, code) := s.atomicAt l aop x y
    if code ≠ 0 then (s, code) else (if aop = 0 then s else s.putS c w.rd.toNat (BitVec.ofNat 64 old), 0)
  | (0, .remote n l) =>
    s.coreRequest c { dest := n, op := opAtomic, ward := t.ward, len := 1, addr := l, data := unitOf [aop, x, y] }
      { s.opFor c t with rd := if aop = 0 then 0 else w.rd.toNat, len := 8 }
  | (0, .window _ _ _) => (s, cProtection)
  | (code, _) => (s, code)

/-- An ATOM of one kind. -/
def State.atom (s : State) (c aop : Nat) (w : MoveWord) : Out :=
  let a := (s.core c).adr w.ra.toNat
  s.issueUnless c 1 (s.heldFor c fun t => s.blocked c a 8 true || s.landsAt c t.ward a true)
    (decide (w.rsv = 0) && !w.ext && decide (w.aop.toNat = aop) && unused (decide (aop ≠ 0)) w.rd && unused (decide (aop = 3)) w.rc
      && decide (w.imm = 0)) (atomRun c aop w)

/-- ATOM ADD (R249). -/
def execAtomAdd (c : Nat) (w : MoveWord) (s : State) : Out := s.atom c 0 w
/-- ATOM FETCH_ADD (R249). -/
def execAtomFetchAdd (c : Nat) (w : MoveWord) (s : State) : Out := s.atom c 1 w
/-- ATOM SWAP (R249). -/
def execAtomSwap (c : Nat) (w : MoveWord) (s : State) : Out := s.atom c 2 w
/-- ATOM CAS (R249). -/
def execAtomCas (c : Nat) (w : MoveWord) (s : State) : Out := s.atom c 3 w

end Sys2Proof.Machine
end

