-- ==== Sys2Proof/Machine/Remote.lean ====
section
/-! DEFINITION. Remote operations at their target and at their issuer (R17, R25, R27, R50 to R53, R246 to R252,
R261, R262). -/
namespace Sys2Proof.Machine

/-! ### At the target -/

/-- Whether a lending window lets a borrower's packet through (R251, R254). -/
def State.windowLets (s : State) (win src ward : Nat) (write : Bool) : Bool :=
  s.flag .memLend_ENABLE win && decide (s.rd .memLend_BORROWER_NODE win = src) && decide (s.rd .memLend_BORROWER_WARD win = ward)
    && (!write || s.flag .memLend_WRITABLE win)

/-- Where a request packet's address lies here, or the code of its refusal (R25, R27, R250, R251). The second value says
whether it lies in a lent window. -/
def State.target (s : State) (p : Packet) (a : Nat) (write : Bool) : Nat × Bool × Nat :=
  match region a with
  | .ward va =>
    match (s.ward p.ward).bind (fun w => w.mapping va) with
    | none => (cUnmapped, false, 0)
    | some m =>
      if (if write then m.w else m.r) = false then (cProtection, false, 0)
      else match m.loc va with
        | .phys x => (0, false, x)
        | _ => (cUnmapped, false, 0)
  | .hbm off =>
    match Smap.get .free s.hbm.frames (off / 2 ^ 21) with
    | .lend win => if s.windowLets win p.src p.ward write then (0, true, a) else (cUnmapped, false, 0)
    | _ => (cUnmapped, false, 0)
  | .core i _ =>
    if s.enabled i = false then (cUnmapped, false, 0)
    else if (s.cluster (clusterOf i)).ward = some p.ward then (0, false, a) else (cWardMismatch, false, 0)
  | .cluster g _ => if (s.cluster g).ward = some p.ward then (0, false, a) else (cWardMismatch, false, 0)
  | _ => (cUnmapped, false, 0)

/-- A request's whole range checked (R250): the first failing code, and where its pieces lie here, with their lengths. -/
def State.targetRange (s : State) (p : Packet) (n : Nat) (write : Bool) : Nat × List (Nat × Nat) :=
  let ps := pieces p.addr (max 1 n)
  (firstCode (ps.map fun q => (s.target p q.1 write).1), ps.map fun q => ((s.target p q.1 write).2.2, min n q.2))

/-- The place of a range's byte i among its pieces. -/
def placeOf : List (Nat × Nat) → Nat → Nat
  | [], i => i
  | (a, n) :: ls, i => if i < n then a + i else placeOf ls (i - n)

/-- A reader's access to a range in pieces. -/
def State.readPieces (s : State) (ls : List (Nat × Nat)) : State × List Byte :=
  ls.foldl (fun acc l => let (s, bs, _) := acc.1.read l.1 l.2; (s, acc.2 ++ bs)) (s, [])

/-- A write to a range in pieces. -/
def State.writePieces (s : State) (ls : List (Nat × Nat)) (bs : List Byte) (poison : Bool) : State :=
  (ls.foldl (fun (acc : State × List Byte) l => (acc.1.write l.1 (acc.2.take l.2) poison, acc.2.drop l.2)) (s, bs)).1

/-- READ (R250, R262): checked whole, then answered, poisoned units apart from clean ones. -/
def State.onRead (s : State) (p : Packet) : State :=
  match s.targetRange p (64 * p.len) false with
  | (0, ls) =>
    let pois := (List.range p.len).map fun i => (i, (s.unitDamage (placeOf ls (64 * i))).any fun b => b)
    let (s, bs) := s.readPieces ls
    (poisonRuns pois).foldl (fun s r => s.answer p opReadData ((bs.drop (64 * r.1)).take (64 * r.2.1)) r.2.2) s
  | (code, _) => s.nakTo p code

/-- WRITE (R247, R250): checked whole, its units land whole, then it is acknowledged. -/
def State.onWrite (s : State) (p : Packet) : State :=
  match s.targetRange p p.data.length true with
  | (0, ls) => (s.writePieces ls p.data (p.pz && decide (p.len ≠ 0))).answer p opAck []
  | (code, _) => s.nakTo p code

/-- WRITE_SIGNAL (R51, R249): data, then the increment, then the acknowledgement. The first unit holds the signal
word's address and the increment (log entry 9). -/
def State.onWriteSignal (s : State) (p : Packet) : State :=
  let sa := wordAt p.data 0
  let inc := wordAt p.data 1
  let data := p.data.drop 64
  let (dc, ls) := if data.isEmpty then (0, []) else s.targetRange p data.length true
  let (sc, lent, a) := s.target p sa true
  let code := firstCode [dc, failIf (decide (sa % 8 ≠ 0)) cMisaligned, sc, failIf (decide (sc = 0) && lent) cProtection]
  if code ≠ 0 then s.nakTo p code else
  let s := s.writePieces ls data p.pz
  let (s, ic) := s.increment a inc
  if ic ≠ 0 then s.nakTo p ic else s.answer p opAck []

/-- ATOMIC (R53, R249): performed here, one at a time; ADD is acknowledged, the others answered with the old value. -/
def State.onAtomic (s : State) (p : Packet) : State :=
  let (rc, _, _) := s.target p p.addr false
  let (wc, lent, a) := s.target p p.addr true
  let code := firstCode [failIf (decide (p.addr % 8 ≠ 0)) cMisaligned, failIf (inReduction p.addr || lent) cProtection,
    if inReduction p.addr then 0 else wc, if inReduction p.addr then 0 else rc]
  if code ≠ 0 then s.nakTo p code else
  let aop := wordAt p.data 0
  let (s, old, dc) := s.atomicAt a aop (wordAt p.data 1) (wordAt p.data 2)
  if dc ≠ 0 then s.nakTo p dc
  else if aop = 0 then s.answer p opAck [] else s.answer p opAtomicData (unitOf [old])

/-- READ. -/
def execRead (p : Packet) (upsets : List Upset) (s : State) : Out :=
  let s := s.upset upsets
  Out.when (s.forMe p) s (s.onRead p)

/-- WRITE. -/
def execWrite (p : Packet) (upsets : List Upset) (s : State) : Out :=
  let s := s.upset upsets
  Out.when (s.forMe p) s (s.onWrite p)

/-- WRITE_SIGNAL. -/
def execWriteSignal (p : Packet) (s : State) : Out := Out.when (s.forMe p) s (s.onWriteSignal p)

/-- ATOMIC. -/
def execAtomic (p : Packet) (s : State) : Out := Out.when (s.forMe p) s (s.onAtomic p)

/-! ### At the issuer -/

/-- A request is answered: it is on its way no more (R266). -/
def State.arrived (s : State) (p : Packet) : State :=
  { s with hinge := { s.hinge with flying := s.hinge.flying.filter fun f => !(decide (f.dest = p.src) && decide (f.pseq = p.addr)) } }

/-- Whether an answer packet is for an operation: its sender, and the request's PSEQ in ADDR (log entry 9). -/
def RemoteOp.answers (o : RemoteOp) (p : Packet) : Bool :=
  decide (o.node = p.src) && decide (o.pseq = p.addr) && decide (o.op ≠ opPending)

/-- The core that an answer is for. -/
def State.coreOf (s : State) (p : Packet) : Option Nat := s.cores.findIdx? fun k => k.ops.any (·.answers p)

/-- A core's operation that an answer is for. -/
def State.coreOp (s : State) (c : Nat) (p : Packet) : RemoteOp := ((s.core c).ops.find? (·.answers p)).getD {}

/-- That operation taken off. -/
def State.dropOp (s : State) (c : Nat) (p : Packet) : State :=
  let k := s.core c
  s.setCore c { k with ops := k.ops.eraseP (·.answers p) }

/-- A place moved on by n bytes. -/
def Loc.plus (l : Loc) (n : Nat) : Loc :=
  match l with
  | .phys a => .phys (a + n)
  | .remote node a => .remote node (a + n)
  | .window node win off => .window node win (off + n)

/-- Bytes that came from a borrowed window, under the ward's key (R252). -/
def State.openData (s : State) (ward : Nat) (l : Loc) (bs : List Byte) : List Byte :=
  match l with
  | .window _ win off =>
    let key := ((s.ward ward).map (·.key)).getD 0
    (List.range (bs.length / 64)).flatMap fun i =>
      Config.xtsDecrypt key (win * 2 ^ 40 + (off + 64 * i) / 64) ((bs.drop (64 * i)).take 64)
  | _ => bs

/-- An operation's task faults with a code, at the operation's tile and place in program order (R250, R310); the tile is
discarded where it still runs. -/
def State.opFault (s : State) (c : Nat) (o : RemoteOp) (code : Nat) : State :=
  let mine := match (s.core c).tile with
    | some t => decide ((t.req, t.task) = o.task) && decide (t.idx = o.tile)
    | none => false
  (if mine then s.discardTile c else s).faultOp o code

/-- READ_DATA (R246, R262): the data lands at the move's destination, or travels on to it. The request is on its way no more
once the last of its data is here, or where nothing waits for it. -/
def State.onReadData (s : State) (p : Packet) : State :=
  match s.coreOf p with
  | none => s.arrived p
  | some c =>
    let o := s.coreOp c p
    if o.op ≠ opRead then s else
    let n := min o.len (64 * p.len)
    let bs := s.openData o.src o.via (p.data.take n)
    let k := s.core c
    let less (x : RemoteOp) : RemoteOp :=
      if x.answers p then { x with len := x.len - n, via := x.via.plus n, dst := x.dst.plus n } else x
    let s := if n = o.len then (s.dropOp c p).arrived p else s.setCore c { k with ops := k.ops.map less }
    let (s, code) := s.putAt c o.src { mv := o.mv, task := o.task, tile := o.tile, ord := o.ord } o.dst bs p.pz
    if code ≠ 0 then s.opFault c o code else s.settle c

/-- The scheduler's operation that an answer is for: its die. -/
def State.issuingDie (s : State) (p : Packet) : Option Nat := s.dies.findIdx? fun d => d.ops.any (·.answers p)

/-- ACK (R17): the operation is complete: a core's, a scheduler's, or a collective's. -/
def State.onAck (s : State) (p : Packet) : State :=
  let s := s.arrived p
  match s.coreOf p with
  | some c => (s.dropOp c p).settle c
  | none =>
    match s.issuingDie p with
    | some d => let x := s.die d; s.setDie d { x with ops := x.ops.eraseP (·.answers p) }
    | none =>
      if s.coll.ops.any fun o => decide ((p.src, p.addr) ∈ o.out) then
        let done (o : ColOp) : ColOp := { o with out := o.out.erase (p.src, p.addr) }
        { s with coll := { s.coll with ops := s.coll.ops.map done } }
      else s

/-- ATOMIC_DATA (R249): the old value reaches the issuer's register. -/
def State.onAtomicData (s : State) (p : Packet) : State :=
  let s := s.arrived p
  match s.coreOf p with
  | none => s
  | some c =>
    let o := s.coreOp c p
    if o.op ≠ opAtomic then s else
    let s := s.dropOp c p
    match (s.core c).tile with
    | some t => if (t.req, t.task) = o.task ∧ t.idx = o.tile then s.putS c o.rd (BitVec.ofNat 64 (wordAt p.data 0)) else s
    | none => s

/-- NAK (R250, R299, R300): the operation faults with the code it carries; a move's signal is not made. A collective packet
that no route takes to the next member faults every open operation of its group. -/
def State.onNak (s : State) (p : Packet) : State :=
  let s := s.arrived p
  let code := (p.data.getD 0 0).toNat
  match s.coreOf p with
  | some c =>
    let o := s.coreOp c p
    let s := s.dropOp c p
    let k := s.core c
    let s := s.setCore c { k with ops := k.ops.filter fun x => !(decide (x.op = opPending) && decide (x.mv = o.mv)) }
    s.opFault c o code
  | none =>
    match s.issuingDie p with
    | some d =>
      let x := s.die d
      let o := (x.ops.find? (·.answers p)).getD {}
      (s.setDie d { x with ops := x.ops.eraseP (·.answers p) }).faultOp o code
    | none =>
      match s.coll.ops.find? fun o => decide ((p.src, p.addr) ∈ o.out) with
      | some o => if code = cUnreachable then s.colUnreachable o.group else s.colFaultAt o.group o.optag code
      | none => s

/-- READ_DATA. -/
def execReadData (p : Packet) (s : State) : Out := Out.when (s.forMe p) s (s.onReadData p)

/-- ACK. -/
def execAck (p : Packet) (s : State) : Out := Out.when (s.forMe p) s (s.onAck p)

/-- ATOMIC_DATA. -/
def execAtomicData (p : Packet) (s : State) : Out := Out.when (s.forMe p) s (s.onAtomicData p)

/-- NAK. -/
def execNak (p : Packet) (s : State) : Out := Out.when (s.forMe p) s (s.onNak p)

end Sys2Proof.Machine
end

