-- ==== Sys2Proof/Machine/Hinge.lean ====
section
/-! DEFINITION. Hinge links and torus time (10_hinge_torus.md): flits in and out, retry, retirement, announcements,
training and time exchange (R256 to R273, R433, R437). -/
namespace Sys2Proof.Machine

/-! ### Packets that arrive -/

/-- A packet handled at its destination (Table 10.4); a reserved operation is answered with UNMAPPED (R261). -/
def State.handle (s : State) (p : Packet) : State :=
  if p.op = opRead then s.onRead p
  else if p.op = opWrite then s.onWrite p
  else if p.op = opWriteSignal then s.onWriteSignal p
  else if p.op = opAtomic then s.onAtomic p
  else if p.op = opReduceWrite then s.onReduceWrite p
  else if p.op = opReadData then s.onReadData p
  else if p.op = opAck then s.onAck p
  else if p.op = opAtomicData then s.onAtomicData p
  else if p.op = opNak then s.onNak p
  else s.nakTo p cUnmapped

/-- A packet that no route takes: its own device's operation faults, another's is answered, an answer is lost (R266,
R299). -/
def State.undeliverable (s : State) (p : Packet) : State :=
  if p.op ≥ 0x10 then s
  else if p.src = s.node then s.onNak { src := p.dest, addr := p.pseq, data := [BitVec.ofNat 8 cUnreachable] }
  else s.nakTo p cUnreachable

/-- A packet passed on from an input port and VC, or sent anew where the port is none (R265, R268), with what it holds. -/
def State.passOn (s : State) (p : Packet) (inVc : Option (Nat × Nat)) (hold : Hold) : State :=
  match s.route p (inVc.map (·.1)) with
  | some port => s.launch p port inVc hold
  | none => (s.freeHold hold).undeliverable p

/-- Key of a packet among those accepted (R268). -/
def acceptKey (src pseq : Nat) : Nat := src * 65536 + pseq

/-- R268: a packet's PSEQ recorded as accepted; entries half the number space behind are forgotten. -/
def State.accept (s : State) (p : Packet) : State :=
  let old (k : Nat × Nat) : Bool := decide (k.1 = p.src) && decide ((p.pseq + 65536 - k.2) % 65536 ≥ 32768)
  { s with hinge := { s.hinge with seen := (p.src, p.pseq) :: s.hinge.seen.filter fun k => !old k } }

/-- A packet out of a port's stream, with the group of flits that brought it: passed on, discarded as a duplicate, or
handled here. -/
def State.packetIn (s : State) (port vc id : Nat) (p : Packet) : State :=
  let hold : Hold := { buf := some (port, id) }
  if p.dest ≠ s.node then s.passOn p (some (port, vc)) hold
  else if (p.src, p.pseq) ∈ s.hinge.seen then s.freeHold hold
  else ((s.accept p).handle p).freeHold hold

/-- Packets of a byte stream, and what is left of an unfinished one (R261). Zero bytes end the stream of a flit. -/
def parsePackets : Nat → List Byte → List Packet × List Byte
  | 0, bs => ([], bs)
  | k + 1, bs =>
    if (bs.take 16).all (· = 0) then ([], [])
    else if bs.length < 16 then ([], bs)
    else
      let p := packetOfHeader (ofBytes (bs.take 16))
      let n := 64 * packetUnits p
      if bs.length < 16 + n then ([], bs)
      else
        let (ps, rest) := parsePackets k (bs.drop (16 + n))
        ({ p with data := (bs.drop 16).take n } :: ps, rest)

/-! ### Data flits -/

/-- R267: the flits up to a sequence number are acknowledged; a SEQ that has arrived is retried no more. -/
def HingePort.acked (h : HingePort) (ack : Nat) : HingePort :=
  match h.retryBuf.findIdx? fun x => x.1 = ack with
  | none => h
  | some i =>
    let gone := (h.retryBuf.take (i + 1)).map (·.1)
    { h with retryBuf := h.retryBuf.drop (i + 1), sent := h.sent.filter (fun x => !decide (x.1 ∈ gone)),
             retrySeq := if h.retrySeq ∈ gone then 1024 else h.retrySeq, badRetry := if h.retrySeq ∈ gone then 0 else h.badRetry }

/-- Symbols that FEC corrected, counted against their lanes (R260). -/
def HingePort.corrected (h : HingePort) (lanes : List Nat) : HingePort :=
  { h with lanes := lanes.foldl (fun l n => l.modify n (· + 1)) h.lanes }

/-- The acknowledgement and the credits of a flit's header taken (Table 10.3). -/
def HingePort.heard (h : HingePort) (ack crvc crn : Nat) : HingePort :=
  let h := h.acked ack
  { h with credits := h.credits.modify crvc (· + crn) }

/-- The receive buffers after a flit of a VC that completed n packets, and left bytes of an unfinished one or none: an
empty flit's are free at once, the others wait for the packets in them (R263). -/
def HingePort.buffers (h : HingePort) (vc n : Nat) (unfinished : Bool) : HingePort :=
  let flits := h.rxOpen.getD vc 0 + 1
  if n = 0 then
    if unfinished then { h with rxOpen := h.rxOpen.set vc flits }
    else { h with rxOpen := h.rxOpen.set vc 0, toReturn := h.toReturn.modify vc (· + flits) }
  else
    let stays := if unfinished then 1 else 0
    { h with rxOpen := h.rxOpen.set vc stays, rxNext := h.rxNext + 1,
             rx := h.rx ++ [{ id := h.rxNext, vc := vc, flits := flits - stays, left := n }] }

/-- A flit in sequence: acknowledgement and credits taken, payload joined to its VC's stream (R261, R263, R267). -/
def HingePort.take (h : HingePort) (f : Flit) : HingePort × List Packet :=
  let h := ({ h with expect := (h.expect + 1) % 1024, ackSeq := f.seq, asked := false } : HingePort).heard f.ack f.crvc f.crn
  let (ps, rest) := parsePackets 64 (Smap.get [] h.partial_ f.vc ++ f.payload)
  (({ h with partial_ := Smap.put [] h.partial_ f.vc rest } : HingePort).buffers f.vc ps.length (!rest.isEmpty), ps)

/-- R267: a flit is discarded and the expected one asked for. -/
def HingePort.ask (h : HingePort) : HingePort := { h with controls := h.controls ++ [.retry h.expect], asked := true }

/-- DATA_FLIT (R259 to R261, R263, R267): FEC, the CRC and the sequence number. A flit with a bad CRC is asked for again;
one out of sequence too, but for those that follow a flit already asked for. A header that spells no data flit of a data
VC has no effect (log entry 157). -/
def execDataFlit (port : Nat) (f : Flit) (s : State) : Out :=
  if s.portIs port 2 = false then .next s else
  let h := (s.port port).corrected (fecLanes f)
  let f := receivedFlit f
  if f.crc ≠ goodCrc f then .next (s.setPort port h.ask)
  else if f.typ ≠ 0 ∨ 6 ≤ f.vc then .next (s.setPort port h)
  else if f.seq ≠ h.expect then .next (s.setPort port (if h.asked then h else h.ask))
  else
    let id := h.rxNext
    let (h, ps) := h.take f
    let s := ps.foldl (fun s p => s.packetIn port f.vc id p) (s.setPort port h)
    .next (s.pump port)

/-! ### The root of torus time -/

/-- The port that leads to the root that R271 chooses: the lowest node ID offered below this node's own, the fewest
hops, the lowest port. An offer of 31 hops or more leads nowhere (log entry 159). -/
def State.upstream (s : State) : Option Nat :=
  (List.range 6).foldl (fun (best : Option Nat) p =>
    let h := s.port p
    if s.rd .hngPortStat_STATE p ≠ 2 ∨ h.peerHops ≥ 31 ∨ h.peerRoot ≥ s.node then best else
    match best with
    | none => some p
    | some q =>
      let g := s.port q
      if h.peerRoot < g.peerRoot ∨ (h.peerRoot = g.peerRoot ∧ h.peerHops < g.peerHops) then some p else best) none

/-- The offset at which the device stands is kept, with nothing left to slew (R273). -/
def State.holdTime (s : State) : State :=
  { s with hinge := { s.hinge with lockBase := s.offset, slewBy := 0, slewAt := s.raw } }

/-- The choice of root and upstream recorded (R271 to R273, Table 10.10): a device that follows no other is its own root
and keeps the time it stands at; without an up port it is unlocked and applies its own offset. -/
def State.chooseRoot (s : State) : State :=
  match s.upstream with
  | some p =>
    let h := s.port p
    let s := ({ s with hinge := { s.hinge with following := some p } } : State).wr .hngTimeStat_ROOT 0 h.peerRoot
    ((s.wr .hngTimeStat_HOPS 0 (h.peerHops + 1)).wr .hngTimeStat_UPSTREAM 0 p).wr .hngTimeStat_LOCKED 0 1
  | none =>
    let s := s.holdTime
    let s := ({ s with hinge := { s.hinge with following := none } } : State).wr .hngTimeStat_ROOT 0 s.node
    let s := (s.wr .hngTimeStat_HOPS 0 0).wr .hngTimeStat_UPSTREAM 0 0
    if (List.range 6).any fun p => decide (s.rd .hngPortStat_STATE p = 2) then s.wr .hngTimeStat_LOCKED 0 1 else
    let s := if s.flag .hngTimeStat_LOCKED then s.bump .hngTimeStat_LOCK_LOSSES else s
    ({ s with hinge := { s.hinge with timeLocked := false } } : State).wr .hngTimeStat_LOCKED 0 0

/-! ### Link state -/

/-- The device chooses its own root again where it follows none (R271). -/
def State.portsChanged (s : State) : State := if s.hinge.following.isNone then s.chooseRoot else s

/-- An announcement on both ports of a ring (R266, R433). -/
def State.announce (s : State) (port : Nat) (usable : Bool) : State :=
  let a : Announcement := { node := s.node, port := port, usable := usable }
  [port, peerPort port].foldl (fun s p => if s.rd .hngPortStat_STATE p = 2 then s.control p (.announce a) else s) s

/-- A packet of a retired port sent on the route that R266 now chooses; a request of this device is on its way by that. -/
def State.sendAnew (s : State) (p : Packet) (hold : Hold) : State :=
  let moved (port : Nat) (f : Flying) : Flying := if f.dest = p.dest ∧ f.pseq = p.pseq then { f with port := port } else f
  let s := match s.route p none with
    | some port => if p.src = s.node ∧ p.op < 0x10 then
        { s with hinge := { s.hinge with flying := s.hinge.flying.map (moved port) } } else s
    | none => s
  s.passOn p none hold

/-- The packets of a port that have not been acknowledged, and those that wait, sent on the routes that R266 now
chooses, ahead of new ones (R268). -/
def State.reroute (s : State) (port : Nat) : State :=
  let h := s.port port
  let ps := h.sent.map (fun x => (x.2.2, ({} : Hold))) ++ h.outPackets.map (fun o => (o.p, o.hold))
  let s := s.setPort port { h with retryBuf := [], sent := [], outPackets := [], outFlits := [] }
  ps.foldl (fun s x => s.sendAnew x.1 x.2) s

/-- R268: a port retires with a cause. -/
def State.retirePort (s : State) (port cause : Nat) : State :=
  let s := (s.wr .hngPortStat_STATE port 4).wr .hngPortStat_CAUSE port cause
  let s := s.event 0x07 port 3 0xFFFF 0x21 cause
  let s := if cause = 3 ∨ cause = 6 then s else s.control port .retire
  ((s.announce port false).reroute port).portsChanged

/-- Whether a port is up or retraining. -/
def State.portLive (s : State) (port : Nat) : Bool :=
  s.portIs port 2 || s.portIs port 3

/-- The header of a control flit taken. -/
def State.heard (s : State) (f : CtlFlit) : State := s.setPort f.port ((s.port f.port).heard f.ack f.crvc f.crn)

/-- RETIRE_CONTROL_FLIT (R268): the peer has retired its port. -/
def execRetireControlFlit (f : CtlFlit) (s : State) : Out :=
  Out.when (s.portLive f.port) s ((s.heard f).retirePort f.port 3)

/-- The link of a port as at its start, traffic kept to be sent. -/
def HingePort.fresh (h : HingePort) : HingePort :=
  { outPackets := h.outPackets.map fun o => { o with off := 0 }, controls := h.controls, downs := h.downs,
    downCount := h.downCount, rxNext := h.rxNext }

/-- LEAVE_CONTROL_FLIT (R437): the peer leaves; the port waits for it again and counts as unusable. -/
def execLeaveControlFlit (f : CtlFlit) (s : State) : Out :=
  let port := f.port
  if s.portLive port then
    let s := ((s.heard f).wr .hngPortStat_STATE port 1).wr .sysStartStat_WAITING 0 (s.rd .sysStartStat_WAITING ||| 2 ^ port)
    let s := (s.announce port false).reroute port
    .next (s.setPort port (s.port port).fresh).portsChanged
  else .next s

/-- R267, R268: the link of a port is down: the port retrains with its traffic held; the fourth time in any 10 s retires
it. -/
def State.hingeDown (s : State) (port : Nat) : State :=
  let h := s.port port
  let t := s.raw
  let downs := t :: h.downs.filter fun x => decide (t < x + 10000000000)
  let s := s.bump .hngPortStat_LINK_DOWNS port
  let s := s.setPort port { h with downs := downs, downCount := h.downCount + 1 }
  let s := s.event 0x07 port 1 0xFFFF 0x20 (s.rd .hngPortStat_LINK_DOWNS port)
  if downs.length ≥ 4 then s.retirePort port 2 else s.wr .hngPortStat_STATE port 3

/-- HINGE_LINK_DOWN (R267, R268). -/
def execHingeLinkDown (port : Nat) (s : State) : Out :=
  Out.when (s.portIs port 2) s (s.hingeDown port)

/-- RETRY_CONTROL_FLIT (R267): the flits from a sequence number on are sent again; a request that follows 16 failed retries
of one SEQ takes the link down. -/
def execRetryControlFlit (f : CtlFlit) (seq : Nat) (s : State) : Out :=
  let port := f.port
  if s.portIs port 2 = false then .next s else
  let s := s.heard f
  let h := s.port port
  match h.retryBuf.findIdx? fun x => x.1 = seq with
  | none => .next (s.pump port)
  | some i =>
    let n := if h.retrySeq = seq then h.badRetry + 1 else 1
    let s := s.setPort port { h with retrySeq := seq, badRetry := n, retries := h.retries + 1,
                                     outFlits := h.outFlits ++ (h.retryBuf.drop i).map (·.2) }
    .next (if n > 16 then s.hingeDown port else s.pump port)

/-- HINGE_RETRAIN_DONE (R267): the port is up again and resumes. -/
def execHingeRetrainDone (port : Nat) (s : State) : Out :=
  if s.portIs port 3 = false then .next s else
  let h := s.port port
  let s := (s.wr .hngPortStat_STATE port 2).setPort port { h with outFlits := h.outFlits ++ h.retryBuf.map (·.2), badRetry := 0, retrySeq := 1024,
                                                                         asked := false }
  .next (s.pump port)

/-- HINGE_RETRAIN_TIMEOUT (R268). -/
def execHingeRetrainTimeout (port : Nat) (s : State) : Out :=
  Out.when (s.portIs port 3) s (s.retirePort port 1)

/-- HINGE_ERROR_WINDOW_END (R268, Table 10.6): a second's counts tested; ten bad windows in a row retire the port. -/
def execHingeErrorWindowEnd (port : Nat) (s : State) : Out :=
  if s.portLive port = false then .next s else
  let h := s.port port
  let io := axisDie (port / 2)
  let most := h.lanes.foldl max 0
  let worst := (h.lanes.findIdx? fun x => x = most).getD 0
  let badLane := if most > 4 * s.rd .hngRetireCfg_LANE_LIMIT io then h.badLane + 1 else 0
  let badWin := if h.retries > s.rd .hngRetireCfg_RETRY_LIMIT io then h.retried + 1 else 0
  let s := (s.wr .hngPortStat_WORST_LANE port worst).wr .hngPortStat_RETRIES port (satN 16 h.retries)
  let s := s.setPort port { h with lanes := List.replicate 8 0, badLane := badLane, retried := badWin, retries := 0 }
  .next (if badLane ≥ 10 then s.retirePort port 4 else if badWin ≥ 10 then s.retirePort port 5 else s)

/-- PORT_ANNOUNCEMENT (R266, R433): the ring's link state follows it, and it is passed on round the ring once. -/
def execPortAnnouncement (port : Nat) (a : Announcement) (s : State) : Out :=
  let key := (a.node, a.port)
  if s.portIs port 2 = false ∨ a.node = s.node ∨ decide (key ∈ s.hinge.linkBad) = !a.usable then .next s else
  let bad := if a.usable then s.hinge.linkBad.filter (· ≠ key) else key :: s.hinge.linkBad
  let s := { s with hinge := { s.hinge with linkBad := bad } }
  let out := peerPort port
  .next (if s.rd .hngPortStat_STATE out = 2 then s.control out (.announce a) else s)

/-- ROUTE_CHANGE_RELEASE (R266): the packets held for a destination follow once its older ones are accounted for. -/
def execRouteChangeRelease (dest : Nat) (s : State) : Out :=
  let held := Smap.get [] s.hinge.heldRoutes dest
  let old := match s.route { dest := dest } none with
    | some port => s.otherWay dest port
    | none => false
  if held.isEmpty ∨ old = true then .next s else
  let s := { s with hinge := { s.hinge with heldRoutes := Smap.put [] s.hinge.heldRoutes dest [] } }
  .next (held.foldl (fun s o =>
    match s.route o.p none with
    | none => (s.freeHold o.hold).undeliverable o.p
    | some port => (s.flies o.p port).launch o.p port none o.hold) s)

/-! ### Training -/

/-- This end's node ID and port sent to the peer in training (R257). -/
def State.identify (s : State) (port : Nat) : State := s.control port (.identity s.node port)

/-- PEER_SIGNAL_DETECTED (R433, R257): a waiting port begins its training. -/
def execPeerSignalDetected (port : Nat) (s : State) : Out :=
  let h := s.port port
  Out.when (s.portIs port 1 && !h.training) s ((s.setPort port { h with training := true }).identify port)

/-- The WAITING bit of a port cleared. -/
def State.notWaiting (s : State) (port : Nat) : State :=
  let m := s.rd .sysStartStat_WAITING
  s.wr .sysStartStat_WAITING 0 (if m.testBit port then m - 2 ^ port else m)

/-- A port whose training has ended with the node and port that its peer announced (R257). -/
def State.portTrained (s : State) (port node peer : Nat) : State :=
  let s := (s.wr .hngPortStat_PEER_NODE port node).wr .hngPortStat_PEER_PORT port peer
  let s := (s.notWaiting port).setPort port (s.port port).fresh
  if node = s.neighbour s.node port ∧ peer = peerPort port then
    (((s.wr .hngPortStat_STATE port 2).announce port true).pump port).portsChanged
  else (s.wr .hngPortStat_STATE port 5).event 0x07 port 2 0xFFFF 0x22 (node + peer * 4096)

/-- HINGE_TRAINING_DONE (R257). -/
def execHingeTrainingDone (port node peerPort : Nat) (s : State) : Out :=
  Out.when (s.portIs port 1 && (s.port port).training) s (s.portTrained port node peerPort)

/-- A port whose training has failed (R433): left with CAUSE 6. -/
def State.portLeft (s : State) (port : Nat) : State :=
  let h := s.port port
  ((s.setPort port { h with training := false }).notWaiting port).retirePort port 6

/-- HINGE_TRAINING_TIMEOUT (R433). -/
def execHingeTrainingTimeout (port : Nat) (s : State) : Out :=
  Out.when (s.portIs port 1 && (s.port port).training) s (s.portLeft port)

end Sys2Proof.Machine
end

