-- ==== Sys2Proof/Machine/Journal.lean ====
section
/-! DEFINITION. The Auven record and its journal in board flash (R406 to R421). -/
namespace Sys2Proof.Machine

/-! ### Flash -/

/-- What an erased byte of flash reads as. -/
def blank : Byte := 0xFF

/-- A stored byte of flash. -/
def State.flashByte (s : State) (a : Nat) : Byte := Smap.get blank s.flash a

/-- n stored bytes of flash. -/
def State.flashRead (s : State) (a n : Nat) : List Byte := (List.range n).map fun i => s.flashByte (a + i)

/-- Bytes programmed from address a on. -/
def programFlash (m : List (Nat × Byte)) (a : Nat) (bs : List Byte) : List (Nat × Byte) :=
  (bs.foldl (fun (x : List (Nat × Byte) × Nat) b => (Smap.put blank x.1 x.2 b, x.2 + 1)) (m, a)).1

/-- The state with bytes of flash programmed. -/
def State.program (s : State) (a : Nat) (bs : List Byte) : State := { s with flash := programFlash s.flash a bs }

/-- The state with a range of flash erased. -/
def State.erase (s : State) (a n : Nat) : State := { s with flash := Smap.clear s.flash a n }

/-- A failed program or erase leaves bytes that no rule names: a free list of offsets and bytes (log entry 2). -/
def State.damageFlash (s : State) (a n : Nat) : State :=
  let l := (Config.flashDamage s.freeCount).filter fun x => decide (x.1 < n)
  { s with freeCount := s.freeCount + 1, flash := l.foldl (fun m x => Smap.put blank m (a + x.1) x.2) s.flash }

/-! ### Records (R413, Table 17.6) -/

/-- One bit of the reflected CRC-32C. -/
def crcStep (c : Nat) : Nat := if c % 2 = 1 then c / 2 ^^^ 0x82F63B78 else c / 2

/-- CRC-32C of bytes (R413). -/
def crc32c (bs : List Byte) : Nat :=
  bs.foldl (fun c b => (List.range 8).foldl (fun c _ => crcStep c) (c ^^^ b.toNat)) 0xFFFFFFFF ^^^ 0xFFFFFFFF

/-- A payload with its padding. -/
def padded (p : List Byte) : List Byte := p ++ List.replicate (roundUp p.length 4 - p.length) 0

/-- Bytes of a record with a payload of n bytes, up to the next 16-byte boundary. -/
def recordSize (n : Nat) : Nat := roundUp (12 + roundUp n 4) 16

/-- A record's bytes (Table 17.6). -/
def recordBytes (type seq : Nat) (p : List Byte) : List Byte :=
  let body := bytesOf 1 type ++ bytesOf 2 p.length ++ bytesOf 4 seq ++ padded p
  0xA5 :: body ++ bytesOf 4 (crc32c body)

/-- Offsets of the two regions (R412). -/
def regionBase (r : Nat) : Nat := if r = 0 then 0x1200000 else 0x1400000

/-- Bytes of a region. -/
def regionSize : Nat := 0x200000

/-- Fill at which the writer compacts (R418). -/
def compactAt : Nat := 1572864

/-- The blocks of a region that are not all 0xFF, by their flash address. -/
def State.usedBlocks (s : State) (r : Nat) : List Nat :=
  ((List.range 32).map fun b => regionBase r + b * 0x10000).filter fun a => !(Smap.within s.flash a 0x10000).isEmpty

/-! ### Payloads -/

/-- The record image as bytes (Table 17.1). -/
def State.imageBytes (s : State) : List Byte := (List.range 3392).map fun i => Smap.get 0 s.journal.image i

/-- HMAC with SHA-512 (R358, R360). -/
def hmac (key msg : List Byte) : List Byte :=
  let k := key ++ List.replicate (128 - key.length) 0
  let pad (x : Byte) : List Byte := k.map fun b => b ^^^ x
  digest (pad 0x5C ++ digest (pad 0x36 ++ msg))

/-- The SVN record of five SVNs under the storage key (Table 17.7). -/
def State.svnBytes (s : State) (l : List Nat) : List Byte :=
  let b := l.flatMap fun v => bytesOf 2 v
  b ++ hmac s.sec.storageKey b

/-- A payload brought to n bytes. -/
def fit (n : Nat) (bs : List Byte) : List Byte := (bs ++ List.replicate n 0).take n

/-- SNAPSHOT (Table 17.7). -/
def State.snapshotBytes (s : State) (epoch : Nat) : List Byte :=
  let j := s.journal
  let flags := (if j.torus.isSome then 1 else 0) + (if j.owner.isSome then 2 else 0) + (if j.svn.isSome then 4 else 0)
  bytesOf 4 epoch ++ bytesOf 4 flags ++ s.imageBytes ++ bytesOf 4 (j.torus.getD 0) ++ fit 204 (j.owner.getD [])
    ++ fit 74 ((j.svn.map s.svnBytes).getD []) ++ List.replicate 30 0

/-! ### The writer (R415 to R420) -/

/-- FILL_KIB as it reads. -/
def State.showFill (s : State) : State := s.wr .jrnStat_FILL_KIB 0 (ceilDiv s.journal.pos 1024)

/-- Step 2 to 4 of R418: a SNAPSHOT into the other region, which becomes the one in use; the old one is erased block by
block, unless a shutdown leaves that to the next start (R421). -/
def State.snapshot (s : State) : State :=
  let old := s.journal.region
  let new := 1 - old
  let epoch := s.rd .jrnStat_EPOCH + 1
  let p := s.snapshotBytes epoch
  let s := s.program (regionBase new) (recordBytes 0x01 s.journal.seq p)
  let erasing := if s.journal.closing then [] else s.usedBlocks old
  let j : Journal := { s.journal with region := new, pos := recordSize p.length, seq := s.journal.seq + 1, compactAfter := false,
                                      firstSnapshot := false, erasing := erasing }
  let s := ({ s with journal := j } : State).wr .jrnStat_EPOCH 0 epoch
  let s := (s.wr .jrnStat_REGION 0 new).wr .jrnStat_COMPACTING 0 0
  (s.wr .jrnStat_ERASE_BUSY 0 (if erasing.isEmpty then 0 else 1)).showFill

/-- R418: a compaction begins: the other region's blocks that are not blank are erased first. -/
def State.compact (s : State) : State :=
  let used := s.usedBlocks (1 - s.journal.region)
  if used.isEmpty then s.snapshot else
  let s := { s with journal := { s.journal with erasing := used, compactAfter := true } }
  (s.wr .jrnStat_COMPACTING 0 1).wr .jrnStat_ERASE_BUSY 0 1

/-- A compaction where the fill asks for one and none is held up (R418, R420). -/
def State.compactIfFull (s : State) : State :=
  let j := s.journal
  if compactAt ≤ j.pos ∧ j.erasing = [] ∧ j.noCompact = false then s.compact else s

/-- What must not be lost is queued whatever the queue holds; where nothing is appended in this start any more, what
waits for it follows at once. -/
def State.journalMust (s : State) (r : JournalRec) (follow : State → State) : State :=
  if s.journal.closing ∨ s.journal.usable = false ∨ s.journal.full then follow s
  else { s with journal := { s.journal with queue := s.journal.queue ++ [r] } }

/-- A HISTORY record queued (R415). -/
def State.history (s : State) : State := s.journalPut { type := 0x02, payload := s.imageBytes }

/-- R416: the shutdown is done. -/
def State.shutdownDone (s : State) : State :=
  (s.wr .jrnStat_SHUTDOWN_DONE 0 1).wr .sysStartStat_STATE 0 5

/-- R416: an orderly shutdown: CLEAN_SHUTDOWNS counts it, a HISTORY and then a SHUTDOWN record are queued, and nothing
after them. -/
def State.shutdown (s : State) (done : Nat) : State :=
  let s := s.auvUpdate.bumpImg 0x00C
  let j := s.journal
  let recs : List JournalRec := [{ type := 0x02, payload := s.imageBytes }, { type := 0x05, done := done }]
  let left := if j.compactAfter then j.erasing else []
  let j : Journal := { j with queue := j.queue ++ recs, closing := true, erasing := left }
  ({ s with journal := j } : State).wr .jrnStat_ERASE_BUSY 0 (if left.isEmpty then 0 else 1)

/-- Whether records wait for a snapshot: the one that recovery asked for (Table 17.8), or one that a shutdown found under
way (R421). -/
def State.waitsSnapshot (s : State) : Bool := s.journal.compactAfter && (s.journal.closing || s.journal.firstSnapshot)

/-- The record at the head of the queue has been programmed: its place is taken, and its SEQ where it is valid. -/
def State.appended (s : State) (r : JournalRec) (ok : Bool) : State :=
  let j := s.journal
  let j : Journal := { j with pos := j.pos + recordSize r.payload.length, seq := if ok then j.seq + 1 else j.seq,
                              queue := if ok then j.queue.drop 1 else j.queue }
  ({ s with journal := j } : State).showFill

/-- R413: a record programmed, its mark last. -/
def State.appendRec (s : State) (r : JournalRec) (ok : Bool) : State :=
  let a := regionBase s.journal.region + s.journal.pos
  let s := s.program a (recordBytes r.type s.journal.seq r.payload)
  let s := if ok then s else
    ((s.damageFlash (a + 8) (recordSize r.payload.length - 8)).program a [0]).wr .jrnStat_WRITE_ERR 0 1
  s.appended r ok

/-- Whether the head of the queue may be appended. -/
def State.mayAppend (s : State) : Bool := s.sclk && s.journal.usable && !s.journal.full && !s.waitsSnapshot

/-- APPEND (R415): a HISTORY record at once, unless a shutdown has begun (R421). I3C, host and signed commands may ask. -/
def execAppend (_req : Requester) (s : State) : Out := Out.when s.managed s s.history

/-- SHUTDOWN (R416). -/
def execShutdown (_req : Requester) (s : State) : Out :=
  Out.when (s.managed && s.journal.usable && !s.journal.closing) s (s.shutdown 1)

/-- R418, R420: a block has been erased, or its erase has failed. -/
def State.blockErased (s : State) (a : Nat) (rest : List Nat) (ok : Bool) : State :=
  let region := if a < regionBase 1 then 0 else 1
  if ok then
    let s := s.erase a 0x10000
    let s := { s with journal := { s.journal with erasing := rest } }
    if rest.isEmpty then
      let s := s.wr .jrnStat_ERASE_BUSY 0 0
      if s.journal.compactAfter then s.snapshot else s.compactIfFull
    else s
  else
    let s := s.damageFlash a 0x10000
    let j : Journal := { s.journal with erasing := [], compactAfter := false, noCompact := true,
                                        full := s.journal.full || s.journal.firstSnapshot }
    let s := { s with journal := j }
    let s := ((s.wr .jrnStat_ERASE_BUSY 0 0).wr .jrnStat_COMPACTING 0 0).wr .jrnStat_WRITE_ERR 0 1
    s.event 0x0C region 2 0xFFFF 0x48 (a - regionBase region)

/-- BLOCK_ERASE_DONE (R418, R420). -/
def execBlockEraseDone (ok : Bool) (s : State) : Out :=
  match s.journal.erasing with
  | [] => .next s
  | a :: rest => Out.when s.sclk s (s.blockErased a rest ok)

/-! ### What an operating second adds (R407 to R409) -/

/-- A bin counted. -/
def State.binImg (s : State) (base k : Nat) : State := s.bumpImg (base + 4 * k)

/-- TEMP_HIST bin of a reading in quarter degrees (Table 17.2). -/
def tempBin (reading : Nat) : Nat := min 15 ((reading - 120) / 20)

/-- RETRY_HIST bin (Table 17.2). -/
def retryBin (r : Nat) : Nat := min 15 (bitLen r)

/-- R409: extreme entry e, replaced only by a value whose compared part is strictly greater. -/
def State.extreme (s : State) (e val mask : Nat) : State :=
  let a := 0x6C0 + 16 * e
  if s.img a % mask < val % mask then ((s.setImg a 4 val).setImg (a + 4) 4 (s.img 0x004)).setImg (a + 8) 4 s.cycle else s

/-- Histograms and extremes of the windows that ended in this second; none where no window did. -/
def State.secondWindows (s : State) : State :=
  let p := s.power
  if p.secWindows = 0 then s else
  let s := (List.range 6).foldl (fun s d =>
    let t := p.secTemp.getD d 0
    (s.binImg (0x080 + 64 * d) (tempBin t)).extreme d t (2 ^ 32)) s
  let s := s.binImg 0x200 (min 15 (p.secEst / p.secWindows / 100))
  let s := (List.range 24).foldl (fun s g => s.binImg (0x240 + 128 * (g / 6)) (p.secFreq.getD g 29)) s
  s.extreme 6 p.secMax (2 ^ 32)

/-- The hinge ports' retries in the second (R407, R409). -/
def State.secondRetries (s : State) : State :=
  (List.range 6).foldl (fun s p =>
    if s.rd .hngPortStat_STATE p ≠ 2 then s else
    let r := s.rd .hngPortStat_RETRIES p
    (s.binImg (0x540 + 64 * p) (retryBin r)).extreme 7 (r + p * 2 ^ 16) (2 ^ 16)) s

/-- Corrections of a stack added to its words 0 and 1 (R408). -/
def State.secondCe (s : State) (stack : Nat) : State :=
  let a := 0x440 + 64 * stack
  let n := s.journal.ce.getD stack 0
  (s.bumpImg a n).bumpImg (a + 4) n

/-- A 30-day period ends for a stack (R408). -/
def State.cePeriod (s : State) (stack : Nat) : State :=
  let a := 0x440 + 64 * stack
  let old := (List.range 12).map fun w => s.img (a + 4 + 4 * w)
  let s := (old.mapIdx fun w v => (w, v)).foldl (fun s x => s.setImg (a + 8 + 4 * x.1) 4 x.2) s
  s.setImg (a + 4) 4 0

/-- Operating seconds of a correction period. -/
def periodSeconds : Nat := 2592000

/-- R407 to R409, R411: one update of the image at the end of an operating second. -/
def State.operatingSecond (s : State) : State :=
  let s := (s.auvUpdate.secondWindows).secondRetries
  let s := ([0, 1, 2, 3].foldl State.secondCe s).bumpImg 0x004
  let s := if s.img 0x004 % periodSeconds = 0 then [0, 1, 2, 3].foldl State.cePeriod s else s
  { s with journal := { s.journal with ce := [0, 0, 0, 0], sinceHistory := s.journal.sinceHistory + 1 },
           power := { s.power with secWindows := 0, secEst := 0, secMax := 0, secTemp := [], secFreq := [] } }

/-- OPERATING_SECOND_END (R407). -/
def execOperatingSecondEnd (s : State) : Out := Out.when (s.sclk && s.journal.recovered) s s.operatingSecond

/-- HISTORY_PERIOD (R415): every PERIOD_MIN minutes of operating time. -/
def execHistoryPeriod (s : State) : Out :=
  Out.when (s.sclk && s.journal.recovered && decide (60 * s.rd .jrnCfg_PERIOD_MIN ≤ s.journal.sinceHistory)) s
    ({ s with journal := { s.journal with sinceHistory := 0 } } : State).history

/-! ### Recovery (R419) -/

/-- A record as it stands in flash. -/
structure FlashRec where
  mark : Nat := 0
  type : Nat := 0
  seq : Nat := 0
  payload : List Byte := []
  good : Bool := false
deriving DecidableEq, Repr

/-- The record at a flash address (Table 17.6). -/
def State.recordAt (s : State) (a : Nat) : FlashRec :=
  let n := ofBytes (s.flashRead (a + 2) 2)
  let body := s.flashRead (a + 1) (7 + roundUp n 4)
  { mark := (s.flashByte a).toNat, type := (s.flashByte (a + 1)).toNat, seq := ofBytes (s.flashRead (a + 4) 4),
    payload := s.flashRead (a + 8) n, good := decide (ofBytes (s.flashRead (a + 8 + roundUp n 4) 4) = crc32c body) }

/-- What replay has gathered. -/
structure Replay where
  image : List (Nat × Byte) := []
  torus : Option Nat := none
  owner : Option (List Byte) := none
  svn : Option (List Byte) := none
  cycles : Nat := 0
  clean : Bool := false
  seq : Nat := 0
  pos : Nat := 0
deriving DecidableEq, Repr

/-- An image from its bytes. -/
def imageOf (bs : List Byte) : List (Nat × Byte) := pokeMem [] 0 bs

/-- The effect of a record on replay (Table 17.7, Table 17.7a). -/
def Replay.apply (r : Replay) (x : FlashRec) : Replay :=
  let p := x.payload
  let r := { r with seq := x.seq, clean := false }
  let part (lo n : Nat) : List Byte := sliceOf p lo n
  match x.type with
  | 0x01 =>
    let f := ofBytes (part 4 4)
    let image := imageOf (part 8 3392)
    { r with image := image, torus := if f.testBit 0 then some (ofBytes (part 3400 4)) else none,
             owner := if f.testBit 1 then some (part 3404 204) else none, svn := if f.testBit 2 then some (part 3608 74) else none,
             cycles := ofBytes (part 16 4) }
  | 0x02 => { r with image := imageOf (p.take 3392), cycles := ofBytes (part 8 4) }
  | 0x03 =>
    let slot := ofBytes (part 0 4)
    let m := pokeMem (pokeMem r.image 0x014 (part 4 4)) 0x018 (part 8 4)
    let co := ofBytes (part 12 2)
    let m := if co = 0 then m else pokeMem m co (part 16 4)
    { r with image := if slot < 32 then pokeMem m (0x740 + 48 * slot) (part 24 48) else m }
  | 0x04 => { r with cycles := ofBytes (part 0 4), image := pokeMem r.image 0x008 (part 0 4) }
  | 0x05 => { r with clean := true }
  | 0x06 => { r with torus := some (ofBytes (part 0 4)) }
  | 0x07 => { r with owner := some p }
  | 0x08 => { r with svn := some p }
  | _ => r

/-- R419: records replayed from a position on, as far as marks, CRCs and SEQ allow. fuel bounds the records. -/
def State.replay (s : State) (base : Nat) : Nat → Replay → Replay
  | 0, r => r
  | k + 1, r =>
    if r.pos + 16 > regionSize then r else
    let x := s.recordAt (base + r.pos)
    let next := r.pos + recordSize x.payload.length
    if x.seq ≠ (r.seq + 1) % 2 ^ 32 ∨ next > regionSize then r
    else if x.mark = 0xA5 ∧ x.good then State.replay s base k { r.apply x with pos := next }
    else if x.mark = 0 then State.replay s base k { r with pos := next }
    else r

/-- EPOCH and SEQ of a region's snapshot; none where the region does not qualify (R419). -/
def State.qualifies (s : State) (region : Nat) : Option (Nat × Nat) :=
  let x := s.recordAt (regionBase region)
  if x.mark = 0xA5 ∧ x.type = 0x01 ∧ x.good then some (ofBytes (x.payload.take 4), x.seq) else none

/-- The region that recovery chooses (R419). -/
def State.chooseRegion (s : State) : Option Nat :=
  match s.qualifies 0, s.qualifies 1 with
  | some (e0, q0), some (e1, q1) => if e1 > e0 ∨ (e1 = e0 ∧ q1 > q0) then some 1 else some 0
  | some _, none => some 0
  | none, some _ => some 1
  | none, none => none

/-- A region replayed from its snapshot on. -/
def State.replayRegion (s : State) (region : Nat) : Replay :=
  let x := s.recordAt (regionBase region)
  let r : Replay := { ({} : Replay).apply x with pos := recordSize x.payload.length }
  s.replay (regionBase region) (regionSize / 16) r

/-- Whether what follows a replay up to the region's end is all 0xFF. -/
def State.tailBlank (s : State) (region : Nat) (r : Replay) : Bool :=
  (Smap.within s.flash (regionBase region + r.pos) (regionSize - r.pos)).isEmpty

/-- The torus configuration in force (R256, R428). -/
def State.setTorus (s : State) (v : Nat) : State :=
  (((s.wr .hngTorusCfg_VALID 0 (bits v 31 31)).wr .hngTorusCfg_LZ 0 (bits v 27 24)).wr .hngTorusCfg_LY 0 (bits v 23 20)).wr
    .hngTorusCfg_LX 0 (bits v 19 16) |>.wr .hngTorusCfg_NODE 0 (bits v 11 0)

/-- R358: the owner record acted on. -/
def State.takeOwner (s : State) : State :=
  match s.journal.owner with
  | none => s.wr .secStat_OWNER 0 0
  | some p =>
    if sliceOf p 140 64 = hmac s.sec.storageKey (p.take 140) then
      ({ s with sec := { s.sec with ownerKey := some (p.take 132), ownerSeq := ofBytes (sliceOf p 132 8) } } : State).wr .secStat_OWNER 0 1
    else
      let (s, w) := s.free
      (s.wr .secStat_OWNER 0 2).event 0x0B (w.toNat % 6) 2 0xFFFF 0x42 0

/-- The larger of two SVNs for each stage. -/
def maxSvns (a b : List Nat) : List Nat := (List.range 5).map fun n => max (a.getD n 0) (b.getD n 0)

/-- R360: SVN_HIGH from the record, raised to the running SVNs; an erased or rejected record restarts from those. A value
that changes is recorded. -/
def State.takeSvn (s : State) (rec : Option (List Byte)) : State :=
  let old : Option (List Nat) := rec.bind fun p =>
    if p.drop 10 = hmac s.sec.storageKey (p.take 10) then some ((List.range 5).map fun n => ofBytes (sliceOf p (2 * n) 2)) else none
  let new := maxSvns (old.getD []) s.sec.svns
  let s := { s with journal := { s.journal with svn := some new } }
  if old = some new then s else s.journalMust { type := 0x08, payload := s.svnBytes new } id

/-- CYCLES of this start in force and in the image, and its START record (R419). -/
def State.countStart (s : State) (n : Nat) : State :=
  let s := { s with journal := { s.journal with recovered := true, cycles := n } }.auvUpdate
  (s.setImg 0x008 4 n).journalPut { type := 0x04, payload := bytesOf 4 n }

/-- The journal of a chosen region in force (R419). -/
def State.recoverFrom (s : State) (region : Nat) : State :=
  let r := s.replayRegion region
  let torn := !s.tailBlank region r
  let epoch := ((s.qualifies region).map (·.1)).getD 0
  let j : Journal := { s.journal with image := r.image, region := region, pos := r.pos, seq := (r.seq + 1) % 2 ^ 32, usable := true,
                                      torus := r.torus, owner := r.owner }
  let s := ({ s with journal := j } : State).wr .jrnStat_EPOCH 0 epoch
  let s := (s.wr .jrnStat_REGION 0 region).wr .jrnStat_RECOVERY 0 (if torn then 2 else if r.clean then 0 else 1)
  let s := if r.clean then s else s.bumpImg 0x010
  let s := (match r.torus with | some v => s.setTorus v | none => s).showFill
  let s := ((s.countStart (r.cycles + 1)).takeOwner).takeSvn r.svn
  if torn then ({ s with journal := { s.journal with firstSnapshot := true } } : State).event 0x0C region 2 0xFFFF 0x48 r.pos |>.compact else
  let used := s.usedBlocks (1 - region)
  ({ s with journal := { s.journal with erasing := used } } : State).wr .jrnStat_ERASE_BUSY 0 (if used.isEmpty then 0 else 1)

/-- No region qualifies: a fresh image, CYCLES 1, and a SNAPSHOT with EPOCH 1 for region A (Table 17.8). -/
def State.recoverFresh (s : State) : State :=
  let j : Journal := { s.journal with image := pokeMem [] 0 (bytesOf 2 1), region := 1, pos := 0, seq := 0, usable := true,
                                      firstSnapshot := true }
  let s := ({ s with journal := j } : State).wr .jrnStat_RECOVERY 0 3
  ((((s.countStart 1).takeOwner).takeSvn none).wr .jrnStat_REGION 0 0).compact

/-- Step 5 of a start: recovery (R419, R428). -/
def State.recover (s : State) : State :=
  match s.chooseRegion with
  | some r => s.recoverFrom r
  | none => s.recoverFresh

end Sys2Proof.Machine
end

