-- ==== Sys2Proof/Machine/Sync.lean ====
section
/-! DEFINITION. The synchronisation instructions of UNIT 0 (Table 12.5, R50 to R52, R313) and what ends a WAIT. -/
namespace Sys2Proof.Machine

/-- R313: where the signal word of a WAIT lies: on this node, and not in a borrowed window; of the codes that apply, the
first of Table 12.17 (R309). -/
def State.waitPlace (s : State) (ward a : Nat) : Nat × Loc :=
  let (code, l) := s.locate ward a false
  let bad := match l with | .phys _ => false | _ => decide (code = 0)
  (firstCode [failIf (decide (a % 8 ≠ 0)) cMisaligned, code,
    failIf (decide (a / 2 ^ 52 % 2 ^ 12 ≠ s.node) || bad) cProtection], l)

/-- R52: core c reads the word it waits for: a damaged word faults the task, a value of at least v ends the wait;
else the core goes on waiting, or faults the task where the limit has run out. -/
def State.waitRead (s : State) (c a v : Nat) (expired : Bool) : State :=
  let (s, bs, d) := s.read a 8
  if d ≠ 0 then s.taskFault c d
  else if v ≤ ofBytes bs then s.setCore c { s.core c with phase := .running, wait := none }
  else if expired then s.taskFault c cWaitTimeout
  else s.setCore c { s.core c with phase := .waiting, wait := some (.signal a v) }

/-- WAIT and WAIT.I: the word is read at once, then as WAIT_WAKE and WAIT_POLL do. -/
def waitRun (c a v : Nat) : Run := fun s t =>
  match s.waitPlace t.ward a with
  | (0, .phys l) => (s.waitRead c l v false, 0)
  | (0, _) => (s, cProtection)
  | (code, _) => (s, code)

/-- WAIT (R52): until the word at RA is at least RB. -/
def execWait (c : Nat) (w : ScalarWord) (s : State) : Out :=
  let k := s.core c
  s.issue c 1 (w.ok false false true true false) (waitRun c (k.adr w.ra.toNat) (k.sreg w.rb.toNat).toNat)

/-- WAIT.I (R52): until the word at RA is at least IMM, zero-extended. -/
def execWaitI (c : Nat) (w : ScalarWord) (s : State) : Out :=
  s.issue c 1 (w.ok false false true false true) (waitRun c ((s.core c).adr w.ra.toNat) w.imm.toNat)

/-- FENCE (R50): it stays until every operation of the core on its way has completed. -/
def execFence (c : Nat) (w : ScalarWord) (s : State) : Out :=
  s.issueUnless c 1 (!(s.core c).ops.isEmpty) (w.ok false false false false false) fun s _ => (s, 0)

/-- SIGNAL (R313): acts as FENCE, then adds IMM[15:0] to the word at RA. -/
def execSignal (c : Nat) (w : ScalarWord) (s : State) : Out :=
  s.issueUnless c 1 (!(s.core c).ops.isEmpty)
    (w.ok false false true false true && decide (w.imm.toNat ≠ 0) && decide (w.imm.toNat < 2 ^ 16)) fun s t =>
    match s.signalPlace t.ward ((s.core c).adr w.ra.toNat) with
    | (0, .phys a) => s.increment a w.imm.toNat
    | (0, .remote n a) => s.coreRequest c (signalPacket t.ward n a w.imm.toNat) (s.opFor c t)
    | (0, _) => (s, cProtection)
    | (code, _) => (s, code)

/-- Whether a local address lies in HBM. -/
def inHbm (a : Nat) : Bool := match region a with | .hbm _ => true | _ => false

/-- WAIT_WAKE (R52): an increment landed at an on-chip word that core c waits for. -/
def execWaitWake (c : Nat) (s : State) : Out :=
  match (s.core c).phase, (s.core c).wait with
  | .waiting, some (.signal a v) => .next (if inHbm a then s else s.waitRead c a v false)
  | _, _ => .next s

/-- WAIT_POLL (R52): a word in HBM is read again. -/
def execWaitPoll (c : Nat) (s : State) : Out :=
  match (s.core c).phase, (s.core c).wait with
  | .waiting, some (.signal a v) => .next (if inHbm a then s.waitRead c a v false else s)
  | _, _ => .next s

/-- WAIT_TIMEOUT (R52): the word is read once more before the task faults. -/
def execWaitTimeout (c : Nat) (s : State) : Out :=
  match (s.core c).phase, (s.core c).wait with
  | .waiting, some (.signal a v) => .next (s.waitRead c a v true)
  | _, _ => .next s

/-- WAIT_LIMIT_EXPIRY (R185, R187, R278): a SCATTER, a PAGE.TRUNC or an opening that still waits faults with
WAIT_TIMEOUT. -/
def execWaitLimitExpiry (c : Nat) (s : State) : Out :=
  match (s.core c).phase, (s.core c).wait with
  | .waiting, some (.scatter _) => .next (s.taskFault c cWaitTimeout)
  | .waiting, some (.trunc _) => .next (s.taskFault c cWaitTimeout)
  | .waiting, some .opening => .next (s.taskFault c cWaitTimeout)
  | _, _ => .next s

end Sys2Proof.Machine
end

