-- ==== Sys2Proof/Machine/Frames.lean ====
section
/-! DEFINITION. HBM capacity in 2 MiB frames and the mappings of wards (R239 to R243, R251, R340): placement, quotas,
4 KiB pages, and the release of frames. -/
namespace Sys2Proof.Machine

/-- Local address of a frame. -/
def frameAddr (f : Nat) : Nat := hbmBase + f * 2 ^ 21

/-- Who holds a frame. -/
def State.frameUse (s : State) (f : Nat) : FrameUse := Smap.get .free s.hbm.frames f

/-- The first free, aligned run of n frames in a pseudo-channel. R242 names no order within one: the lowest is taken. -/
def State.frameIn (s : State) (pc n : Nat) : Option Nat :=
  ((List.range (2048 / n)).map fun i => pc * 2048 + i * n).find? fun f =>
    (List.range n).all fun j => decide (s.frameUse (f + j) = .free)

/-- One page of n frames placed in a stack: the live pseudo-channels that a mask allows in rotation (R242). -/
def State.placeIn (s : State) (use : FrameUse) (n stack mask : Nat) : Option (State × Nat) :=
  let from_ := s.hbm.rotation.getD stack 0
  (List.range 32).findSome? fun i =>
    let p := (from_ + i) % 32
    let pc := stack * 32 + p
    if s.live pc && mask.testBit p then
      (s.frameIn pc n).map fun f =>
        let frames := (List.range n).foldl (fun m j => Smap.put .free m (f + j) use) s.hbm.frames
        let s := { s with hbm := { s.hbm with frames := frames, rotation := s.hbm.rotation.set stack ((p + 1) % 32) } }
        (s.wr .memCapacity_FREE_FRAMES 0 (s.rd .memCapacity_FREE_FRAMES - n), f)
    else none

/-- Pages placed in turn over stacks, page i in stack i mod their number (R242): the state, the first frame of each page,
and how many pages found no place. -/
def State.placeGo (use : FrameUse) (n : Nat) (stackList : List Nat) (mask : Nat) : Nat → Nat → State → State × List Nat × Nat
  | 0, _, s => (s, [], 0)
  | k + 1, i, s =>
    match s.placeIn use n (stackList.getD (i % stackList.length) 0) mask with
    | some (s, f) =>
      let (s, fs, miss) := State.placeGo use n stackList mask k (i + 1) s
      (s, f :: fs, miss)
    | none =>
      let (s, fs, miss) := State.placeGo use n stackList mask k (i + 1) s
      (s, fs, miss + 1)

/-- Placement of a command: 0 basic, else a mask of stacks in bits [3:0] and of pseudo-channels in bits [63:32]. -/
structure Placement where
  stackList : List Nat := [0, 1, 2, 3]
  mask : Nat := 0xFFFFFFFF
deriving DecidableEq, Repr

def Placement.of (x : Nat) : Placement :=
  if x = 0 then {} else { stackList := (List.range 4).filter x.testBit, mask := x / 2 ^ 32 % 2 ^ 32 }

/-- A placement in full, or the shortfall in frames with nothing changed (R242). -/
def State.placePages (s : State) (use : FrameUse) (n count : Nat) (p : Placement) : Except Nat (State × List Nat) :=
  if count = 0 then .ok (s, [])
  else if p.stackList.isEmpty then .error (n * count)
  else
    let (t, fs, miss) := State.placeGo use n p.stackList p.mask count 0 s
    if miss ≠ 0 then .error (n * miss) else .ok (t, fs)

/-- A frame given back: free capacity grows where its pseudo-channel is live (R238). -/
def State.freeFrame (s : State) (f : Nat) : State :=
  if s.frameUse f = .free then s else
  let s := { s with hbm := { s.hbm with frames := Smap.put .free s.hbm.frames f .free } }
  if s.live (f / 2048) then s.wr .memCapacity_FREE_FRAMES 0 (s.rd .memCapacity_FREE_FRAMES + 1) else s

/-- Frames filled with zeros. -/
def State.zeroFrames (s : State) (fs : List Nat) (n : Nat) : State :=
  fs.foldl (fun s f => s.zero (frameAddr f) (n * 2 ^ 21)) s

/-! ### Mappings -/

/-- Whether a virtual range meets a mapping of a ward. -/
def Ward.meets (w : Ward) (va size : Nat) : Bool :=
  w.maps.any fun m => decide (m.va < va + size) && decide (va < m.va + 2 ^ m.log)

/-- The mappings within a range, in ascending order; none unless they cover it whole and leave no page cut (Table 9.9). -/
def Ward.whole (w : Ward) (va size : Nat) : Option (List Mapping) :=
  let ms := w.maps.filter fun m => decide (va ≤ m.va) && decide (m.va + 2 ^ m.log ≤ va + size)
  if decide (size ≠ 0) && decide ((ms.map fun m => 2 ^ m.log).foldl (· + ·) 0 = size)
      && (w.maps.all fun m => decide (m ∈ ms) || decide (m.va + 2 ^ m.log ≤ va) || decide (va + size ≤ m.va))
  then some ms else none

/-- Frames of a ward that count against its quota: mapped, or borrowed in pages of 2 MiB. -/
def State.wardFrames (s : State) (w : Nat) : Nat :=
  (s.hbm.frames.filter fun f => decide (f.2 = .map w)).length +
    (((s.ward w).map (·.maps)).getD []).countP fun m => match m.target with | .lent _ _ _ => true | _ => false

/-- R242: how far new frames would take a ward above its quota. -/
def State.overQuota (s : State) (w n : Nat) : Nat :=
  let q := s.rd .wrdPolicy_FRAME_QUOTA w
  if q = 0 then 0 else s.wardFrames w + n - q

/-- log2 of a page size given in bytes; none for any other size. -/
def pageLog (bytes : Nat) : Option Nat :=
  if bytes = 2 ^ 12 then some 12 else if bytes = 2 ^ 21 then some 21 else if bytes = 2 ^ 30 then some 30 else none

/-- R239, Table 9.9: whether a range is aligned to its pages and lies in ward space. -/
def rangeOk (va size log : Nat) : Bool :=
  decide (size ≠ 0) && decide (va % 2 ^ log = 0) && decide (size % 2 ^ log = 0) && decide (va + size ≤ 2 ^ 51)

/-- The free 4 KiB places in the frames that a ward cuts (R242), in order. -/
def Ward.places4k (w : Ward) : List (Nat × Nat) :=
  w.used4k.flatMap fun f => ((List.range 512).filter fun i => !decide (i ∈ f.2)).map fun i => (f.1, i)

/-- The ward with a 4 KiB place taken. -/
def Ward.take4k (w : Ward) (f i : Nat) : Ward :=
  if w.used4k.any fun x => decide (x.1 = f) then
    { w with used4k := w.used4k.map fun x => if x.1 = f then (f, i :: x.2) else x }
  else { w with used4k := w.used4k ++ [(f, [i])] }

/-- Why a memory command fails: its status and its shortfall. -/
structure MemFail where
  code : Nat := 0
  short : Nat := 0
deriving DecidableEq, Repr

/-- MAP's work (R242, Table 9.9): frames allocated, filled with zeros and mapped, or the failure. Permissions: bit 0
read, bit 1 write. -/
def State.mapRange (s : State) (w va size page perm : Nat) (p : Placement) : Except MemFail State :=
  match s.ward w, pageLog page with
  | some wd, some log =>
    if !rangeOk va size log || wd.meets va size then .error { code := cDescriptor } else
    let count := size / 2 ^ log
    let old := wd.places4k
    let fresh := if log = 12 then ceilDiv (count - old.length) 512 else count
    let n := if log = 30 then 512 else 1
    let excess := s.overQuota w (fresh * n)
    if excess ≠ 0 then .error { code := cCapacity, short := excess } else
    match s.placePages (.map w) n fresh p with
    | .error short => .error { code := cCapacity, short := short }
    | .ok (s, fs) =>
      let s := s.zeroFrames fs n
      let mapping (i a : Nat) : Mapping :=
        { va := va + i * 2 ^ log, log := log, r := perm.testBit 0, w := perm.testBit 1, target := .hbm a }
      if log = 12 then
        let places := (old ++ fs.flatMap fun f => (List.range 512).map fun i => (f, i)).take count
        let s := places.foldl (fun (s : State) (x : Nat × Nat) => s.zero (frameAddr x.1 + x.2 * 4096) 4096) s
        let ms := places.mapIdx fun i (x : Nat × Nat) => mapping i (frameAddr x.1 + x.2 * 4096)
        .ok (s.modWard w fun wd => { places.foldl (fun (wd : Ward) x => wd.take4k x.1 x.2) wd with maps := wd.maps ++ ms })
      else
        let ms := fs.mapIdx fun i f => mapping i (frameAddr f)
        .ok (s.modWard w fun wd => { wd with maps := wd.maps ++ ms })
  | _, _ => .error { code := cDescriptor }

/-- The frame of a local HBM address. -/
def frameOf (a : Nat) : Nat := (a - hbmBase) / 2 ^ 21

/-- What one removed mapping held is given back: its frames, or its 4 KiB place and the frame that holds no other. -/
def State.releaseMapping (s : State) (w : Nat) (m : Mapping) : State :=
  match m.target with
  | .lent _ _ _ => s
  | .hbm a =>
    if m.log = 12 then
      let f := frameOf a
      let i := a % 2 ^ 21 / 4096
      let left := ((((s.ward w).map (·.used4k)).getD []).find? fun x => x.1 = f).map fun x => x.2.filter (· ≠ i)
      match left with
      | some [] => (s.modWard w fun wd => { wd with used4k := wd.used4k.filter fun x => x.1 ≠ f }).freeFrame f
      | some l => s.modWard w fun wd => { wd with used4k := wd.used4k.map fun x => if x.1 = f then (f, l) else x }
      | none => s
    else (List.range (2 ^ (m.log - 21))).foldl (fun s j => s.freeFrame (frameOf a + j)) s

/-- Mappings taken out of a ward and their frames freed. -/
def State.unmapAll (s : State) (w : Nat) (ms : List Mapping) : State :=
  let s := s.modWard w fun wd => { wd with maps := wd.maps.filter fun m => !decide (m ∈ ms) }
  ms.foldl (fun s m => s.releaseMapping w m) s

/-- Whether n bytes at a translated place lie in what a mapping names. -/
def Mapping.hits (m : Mapping) (n : Nat) (l : Loc) : Bool :=
  match m.target, l with
  | .hbm a, .phys x => decide (a < x + n) && decide (x < a + 2 ^ m.log)
  | .lent n1 w off, .window n2 w' off' => decide (n1 = n2) && decide (w = w') && decide (off < off' + n) && decide (off' < off + 2 ^ m.log)
  | _, _ => false

/-- The translated places that an operation on its way uses, with their lengths: its data and the signal that follows. -/
def RemoteOp.places (o : RemoteOp) : List (Nat × Loc) :=
  [(max 1 o.len, o.dst), (max 1 o.len, o.via)] ++ (o.sig.map fun x => (8, x.1)).toList

/-- Those that a tile holds: the outputs that END releases and the word that it waits for. -/
def Core.places (k : Core) : List (Nat × Loc) :=
  (k.held.filterMap fun
    | .write l data _ => some (max 1 data.length, l)
    | .signal l _ => some (8, l)
    | .deliver _ _ _ _ _ => none) ++
  (match k.wait with | some (.signal a _) => [(8, .phys a)] | _ => []) ++ k.ops.flatMap RemoteOp.places

/-- Whether any access that translated before a cutover is on its way (R243): of a tile that runs or is saved, or of a
scheduler. -/
def State.rangeBusy (s : State) (ms : List Mapping) : Bool :=
  let places := (s.cores ++ s.images.map (·.core)).flatMap Core.places ++ s.dies.flatMap fun d => d.ops.flatMap RemoteOp.places
  places.any fun x => ms.any fun m => m.hits x.1 x.2

end Sys2Proof.Machine
end

