-- ==== Sys2Proof/Machine/Groups.lean ====
section
/-! DEFINITION. Activation and end of collective groups (R274 to R276, R289). -/
namespace Sys2Proof.Machine

/-- The ports to a group's ring neighbours: both directions of every spanned axis with more than one member (R275). -/
def State.groupPorts (s : State) (g : Group) : List Nat :=
  g.axes.flatMap fun a => if s.axisLen a > 1 then [2 * a, 2 * a + 1] else []

/-- The reservations of a group's rings counted on their dies, or taken off again (R275, R289). -/
def State.reserveRings (s : State) (g : Group) (on : Bool) : State :=
  g.axes.foldl (fun s a =>
    let io := axisDie a
    let n := s.rd .colSlotStat_RESERVED_SLOTS io
    (s.wr .colSlotStat_RESERVED_SLOTS io (if on then n + g.reserve else n - g.reserve)).setFree io) s

/-- The slots that a group would reserve on a die. -/
def Group.reserveOn (g : Group) (io : Nat) : Nat := (g.axes.filter fun a => decide (axisDie a = io)).length * g.reserve

/-- Whether a reserved bit of a group descriptor is set, or RESERVE has a value that it may not have (R275). -/
def groupDescBad (ws : List Word) : Bool :=
  let w0 := (ws.getD 0 0).toNat
  decide (bits w0 15 0 ≠ 0) || (List.range 6).any (fun i => decide ((ws.getD (2 + i) 0) ≠ 0))
    || (decide (1 ≤ bits w0 42 36) && decide (bits w0 42 36 ≤ 3))

/-- R275, R340: the code with which GROUP_ACT is refused. -/
def State.groupCode (s : State) (g : Group) (ws : List Word) : Nat :=
  let quota := s.rd .wrdPolicy_GROUP_QUOTA g.ward
  firstCode [
    failIf (groupDescBad ws || (!g.axes.isEmpty && !s.flag .hngTorusCfg_VALID) || (s.group g.id).isSome) cDescriptor,
    failIf (decide (s.coll.groups.length ≥ 64)
      || [0, 1].any (fun io => decide (s.rd .colSlotStat_RESERVED_SLOTS io + g.reserveOn io > 2048))
      || (decide (quota ≠ 0) && decide ((s.coll.groups.filter fun x => decide (x.ward = g.ward)).length ≥ quota))) cCapacity]

/-- A group whose neighbours have all confirmed is active, and its command completes. -/
def State.groupUp (s : State) (g : Group) : State :=
  let s := s.modGroup g.id fun x => { x with phase := .active, act := none }
  let s := (s.wr .colGroupStat_ACTIVE g.id 1).wr .colGroupStat_WARD g.id g.ward
  let s := (s.wr .colGroupStat_OPEN_OPS g.id 0).wr .colGroupStat_FAULTS g.id 0
  match g.act with
  | some c => s.complete g.actQueue c
  | none => s

/-- Whether a neighbour's descriptor and ward agree with a group's. -/
def Group.agrees (g : Group) (ward w0 w1 : Nat) : Bool :=
  decide (g.ward = ward) && decide (g.w0 = w0) && decide (g.w1 = w1)

/-- A neighbour's descriptor compared with this device's own group and answered. -/
def State.groupAnswer (s : State) (g : Group) (port ward w0 w1 : Nat) : State :=
  s.control port (.groupConfirm g.id (g.agrees ward w0 w1))

/-- R275: the activation of a group begins: its rings are reserved, its descriptor goes to the neighbours, and
neighbours heard before are answered. -/
def State.groupStart (s : State) (g : Group) : State :=
  let ports := s.groupPorts g
  let g := { g with waitPorts := ports }
  let s := ({ s with coll := { s.coll with groups := s.coll.groups ++ [g] } } : State).reserveRings g true
  let s := ports.foldl (fun s p => s.control p (.groupDesc g.ward g.w0 g.w1)) s
  let mine (x : Nat × Nat × Nat × Nat) : Bool := decide (bits x.2.2.1 63 58 = g.id)
  let s := (s.coll.heard.filter mine).foldl (fun s x => s.groupAnswer g x.1 x.2.1 x.2.2.1 x.2.2.2) s
  let s := { s with coll := { s.coll with heard := s.coll.heard.filter fun x => !mine x } }
  if ports.isEmpty then s.groupUp g else s

/-- GROUP_ACT (R275): the group descriptor named by the next submission entry. -/
def execGroupAct (qpn : Nat) (s : State) : Out :=
  s.takeEntry qpn (fun op => decide (op = 2)) fun s q e =>
    if e.reserved ∨ e.word 1 % 64 ≠ 0 then s.endEntry qpn e cDescriptor else
    let (s, bs, code) := s.vread q.ward (e.word 1) 64
    if code ≠ 0 then s.endEntry qpn e code else
    let ws := wordsIn bs
    let w0 := (ws.getD 0 0).toNat
    let unlocked := s.unlockedFor q.ward
    let ignored := !unlocked && (decide (bits w0 52 16 ≠ 0) || decide (ws.getD 1 0 ≠ 0))
    let g : Group := { id := bits w0 63 58, ward := q.ward, w0 := w0, w1 := (ws.getD 1 0).toNat, unlocked := unlocked,
                       act := some { tag := e.tag, sq := e.index, ignored := ignored, began := e.began }, actQueue := qpn }
    let code := s.groupCode g ws
    if code ≠ 0 then s.endEntry qpn e code else
    (if ignored then s.wr .sysExpertCtl_IGNORED_SEEN 0 1 else s).groupStart g

/-- A failed activation reserves nothing. -/
def State.groupFail (s : State) (g : Group) (code : Nat) : State :=
  let s := s.reserveRings g false
  let s := { s with coll := { s.coll with groups := s.coll.groups.filter fun x => x.id ≠ g.id } }
  match g.act with
  | some c => s.complete g.actQueue { c with status := code }
  | none => s

/-- GROUP_CONFIRM (R275). -/
def execGroupConfirm (g port : Nat) (agrees : Bool) (s : State) : Out :=
  match s.group g with
  | none => .next s
  | some x =>
    if x.phase ≠ .activating ∨ port ∉ x.waitPorts then .next s
    else if agrees = false then .next (s.groupFail x cWardMismatch)
    else
      let left := x.waitPorts.filter (· ≠ port)
      let s := s.modGroup g fun x => { x with waitPorts := left }
      .next (if left.isEmpty then s.groupUp x else s)

/-- GROUP_ACT_TIMEOUT (R275): a neighbour has not confirmed within 100 ms. -/
def execGroupActTimeout (g : Nat) (s : State) : Out :=
  match s.group g with
  | some x => Out.when (decide (x.phase = .activating)) s (s.groupFail x cUnreachable)
  | none => .next s

/-- DESCRIPTOR_EXCHANGE (R275): a neighbour's descriptor is compared with this device's own, or kept until its own
activation, the latest of each neighbour and group. -/
def execDescriptorExchange (port ward w0 w1 : Nat) (s : State) : Out :=
  if s.portIs port 2 = false then .next s else
  match s.group (bits w0 63 58) with
  | some g => .next (s.groupAnswer g port ward w0 w1)
  | none =>
    let old (x : Nat × Nat × Nat × Nat) : Bool := decide (x.1 = port) && decide (bits x.2.2.1 63 58 = bits w0 63 58)
    .next { s with coll := { s.coll with heard := s.coll.heard.filter (fun x => !old x) ++ [(port, ward, w0, w1)] } }

/-- Whether a packet that waits to leave holds a slot of a group. -/
def OutPacket.holdsSlot (o : OutPacket) (g : Nat) : Bool :=
  match o.hold.slot with
  | some x => decide (x.1 = g)
  | none => false

/-- Whether an operation of a group is open, or a slot of it still held by a packet that waits to leave (R276, R288). -/
def State.groupBusy (s : State) (g : Nat) : Bool :=
  (s.coll.ops.any fun o => decide (o.group = g)) || (s.hinge.ports.any fun h => h.outPackets.any (·.holdsSlot g))
    || s.hinge.heldRoutes.any fun x => x.2.any (·.holdsSlot g)

/-- R276: a group that no operation uses any more gives its slots, reservations and ID back. -/
def State.groupEnd (s : State) (g : Group) : State :=
  let s := s.reserveRings g false
  let mine (p : Packet) : Bool := decide (bits p.addr 49 44 = g.id)
  let late := s.coll.early.filter mine
  let s := { s with coll := { s.coll with groups := s.coll.groups.filter (fun x => x.id ≠ g.id),
                                          early := s.coll.early.filter fun p => !mine p } }
  let s := late.foldl (fun s p => s.nakTo p cUnmapped) s
  let s := [Fld.colGroupStat_ACTIVE, .colGroupStat_WARD, .colGroupStat_OPEN_OPS, .colGroupStat_HELD_X, .colGroupStat_HELD_Y,
    .colGroupStat_HELD_Z, .colGroupStat_FAULTS].foldl (fun s f => s.wr f g.id 0) s
  match g.deact with
  | some c => s.complete g.actQueue c
  | none => s

/-- A group is to end: at once where nothing of it is open. -/
def State.groupDeact (s : State) (g : Group) (c : Option Completion) (qpn : Nat) : State :=
  let g := { g with phase := .ending, deact := c, actQueue := qpn }
  let s := s.modGroup g.id fun _ => g
  if s.groupBusy g.id then s else s.groupEnd g

/-- GROUP_DEACT (R276): the group that the next submission entry names; DESCRIPTOR where no such group of the ward is
active. -/
def execGroupDeact (qpn : Nat) (s : State) : Out :=
  s.takeEntry qpn (fun op => decide (op = 3)) fun s q e =>
    match s.group (bits (e.word 1) 5 0) with
    | some g =>
      if e.reserved ∨ g.ward ≠ q.ward ∨ g.phase ≠ .active then s.endEntry qpn e cDescriptor
      else s.groupDeact g (some { tag := e.tag, sq := e.index, began := e.began }) qpn
    | none => s.endEntry qpn e cDescriptor

end Sys2Proof.Machine
end

