-- ==== Sys2Proof/Machine/Wards.lean ====
section
/-! DEFINITION. Creation, change and deletion of wards (R339 to R344, R349), and the end of queue pairs and queues
(R338). -/
namespace Sys2Proof.Machine

/-- A parameter of a management command (Table 13.8). -/
def MgmtCmd.param (m : MgmtCmd) (n : Nat) : Nat := (m.params.getD n 0).toNat

/-- Whether a command must wait for an UNMAP or PROTECT that has not completed: memory commands of different wards may
overlap, nothing else does (R241, R336). -/
def State.mgmtWaits (s : State) (m : MgmtCmd) : Bool :=
  if m.code ∈ [0x10, 0x11, 0x12, 0x13, 0x16] then s.host.cutovers.any fun c => decide (c.1.ward = m.param 0)
  else !s.host.cutovers.isEmpty

/-- The management command in hand, where it has a given code and may be executed. -/
def State.mgmtIs (s : State) (code : Nat) : Option MgmtCmd :=
  match s.host.mgmt with
  | some m => if m.code = code ∧ s.mgmtWaits m = false then some m else none
  | none => none

/-! ### Queue pairs and queues that end -/

/-- R338: what becomes of a queue's requests when it ends: undispatched ones are cancelled, the others run on without a
completion entry, and those that only wait for their entry are done. -/
def State.dropQueueWork (s : State) (n : Nat) : State :=
  let keep (x : Request) : Bool := decide (x.qpn ≠ n) || (decide (x.phase ≠ .waiting) && decide (x.phase ≠ .ready))
  let kept := s.requests.filter keep
  { s with requests := kept.map fun x => if x.qpn = n then { x with noCompletion := true } else x }

/-- A Gotar queue destroyed. -/
def State.destroyQueue (s : State) (n : Nat) : State := (s.dropQueueWork n).dropGotar n

/-- A queue pair destroyed, with the queue it carries. -/
def State.destroyQp (s : State) (n : Nat) : State :=
  let s := s.destroyQueue n
  { s with host := { s.host with qps := s.host.qps.filter fun p => p.1 ≠ n } }

/-! ### Policy (Table 14.2) -/

/-- The fields of a policy with their places. -/
def policyFields : List (Fld × Nat × Nat) :=
  [(.wrdPolicy_FRAME_QUOTA, 127, 110), (.wrdPolicy_QP_QUOTA, 109, 96), (.wrdPolicy_GROUP_QUOTA, 95, 89), (.wrdPolicy_CL_MIN, 88, 84),
   (.wrdPolicy_CL_MAX, 83, 79), (.wrdPolicy_POWER_FRAC, 78, 71), (.wrdPolicy_BW_FRAC, 70, 63), (.wrdPolicy_EXPERT_UNLOCK, 0, 0)]

/-- R342: the part of a cluster count on a die. -/
def share (n ward die : Nat) : Nat := n / 4 + (if (die + 4 - ward % 4) % 4 < n % 4 then 1 else 0)

/-- Wards that exist. -/
def State.activeWards (s : State) : List Nat := (List.range 512).filter s.wardActive

/-- BW_FRAC as it counts for a fixed ward: 0 acts as 1. -/
def bwShare (f : Nat) : Nat := max 1 f

/-- R341: BW_FIXED as a command may set it, and whether the wish was ignored. -/
def State.fixedOf (s : State) (w v : Nat) (create : Bool) : Bool × Bool :=
  let want := v.testBit 62
  let old := !create && s.flag .wrdPolicy_BW_FIXED w
  let may := s.unlocked || (!create && s.flag .wrdPolicy_EXPERT_UNLOCK w)
  if want = old then (old, false) else if may then (want, false) else (old, true)

/-- R339, R342, R349: the code with which a policy is refused. -/
def State.policyCode (s : State) (w v : Nat) (fixed : Bool) : Nat :=
  let cmin := bits v 88 84
  let cmax := bits v 83 79
  let others := s.activeWards.filter (· ≠ w)
  let mins (d : Nat) : Nat := (others.map fun x => share (s.rd .wrdPolicy_CL_MIN x) x d).foldl (· + ·) (share cmin w d)
  let fixedSum := ((others.filter fun x => s.flag .wrdPolicy_BW_FIXED x).map fun x => bwShare (s.rd .wrdPolicy_BW_FRAC x)).foldl (· + ·)
    (if fixed then bwShare (bits v 70 63) else 0)
  firstCode [
    failIf (decide (cmin > 24) || decide (cmax > 24) || decide (cmax < cmin) || decide (bits v 95 89 > 64) || decide (bits v 60 1 ≠ 0)) cDescriptor,
    failIf ((List.range 4).any fun d => decide (mins d > 6)) cCapacity,
    failIf (decide (fixedSum > 224)) cCapacity]

/-- The policy registers of a ward written. -/
def State.setPolicy (s : State) (w v : Nat) (fixed : Bool) : State :=
  (policyFields.foldl (fun s f => s.wr f.1 w (bits v f.2.1 f.2.2)) s).wr .wrdPolicy_BW_FIXED w (if fixed then 1 else 0)

/-- The per-ward counters cleared (R340, R344). -/
def State.clearCounters (s : State) (w : Nat) : State :=
  let others (l : List (Nat × Nat)) : List (Nat × Nat) := l.filter fun x => x.1 ≠ w
  let s := { s with power := { s.power with stepEnergy := others s.power.stepEnergy, totalEnergy := others s.power.totalEnergy,
                                            budgetSum := s.power.budgetSum.filter fun x => x.1 ≠ w } }
  [Fld.wrdExcCount_INVALID_TILES, .wrdExcCount_DIVZERO_TILES, .wrdExcCount_OVERFLOW_TILES, .wrdExcCount_UNDERFLOW_TILES,
   .kvpWardStat_DROPS, .kvpWardStat_SPILLS, .kvpWardStat_RECOMPUTES, .kvpWardStat_ABSENT,
   .wrdEnergy_TOTAL, .wrdEnergy_LAST_STEP, .wrdEnergy_LAST_BUDGET_W].foldl (fun s f => s.wr f w 0) s

/-- Save frames of a ward. -/
def State.saveFrames (s : State) (w : Nat) : Nat := (s.hbm.frames.filter fun f => decide (f.2 = .save w)).length

/-- An expert wish that was ignored (R341). -/
def State.ignoredCmd (s : State) (m : MgmtCmd) (ignored : Bool) : State × MgmtCmd :=
  if ignored then (s.wr .sysExpertCtl_IGNORED_SEEN 0 1, { m with ignored := true }) else (s, m)

/-- WARD_CREATE (R340): policy checked, key generated, save frames placed, counters cleared, ACTIVE set. -/
def execWardCreate (s : State) : Out :=
  match s.mgmtIs 0x40 with
  | none => .next s
  | some m =>
    let w := m.param 0
    let v := m.param 1 + m.param 2 * 2 ^ 64
    let (fixed, ignored) := s.fixedOf w v true
    let code := firstCode [failIf (decide (w ≥ 512) || s.wardActive w) cDescriptor, s.policyCode w v fixed]
    if code ≠ 0 then .next (s.mgmtDone m code) else
    match s.placePages (.save w) 1 (16 * bits v 83 79) {} with
    | .error short => .next (s.mgmtDone m cCapacity short)
    | .ok (s, _) =>
      let key := Config.random s.sec.randoms
      let wd : Ward := { id := w, key := key }
      let s := { s with sec := { s.sec with randoms := s.sec.randoms + 1 }, wards := s.wards ++ [wd] }
      let s := ((s.clearCounters w).setPolicy w v fixed).wr .wrdPolicy_ACTIVE w 1
      let (s, m) := s.ignoredCmd m ignored
      .next (s.mgmtDone m 0)

/-- WARD_POLICY (R343): the registers change at once; each field is in force from its point on. Save frames that a
raised CL_MAX needs are placed now. -/
def execWardPolicy (s : State) : Out :=
  match s.mgmtIs 0x42 with
  | none => .next s
  | some m =>
    let w := m.param 0
    let v := m.param 1 + m.param 2 * 2 ^ 64
    let (fixed, ignored) := s.fixedOf w v false
    let code := firstCode [failIf (decide (w ≥ 512) || !s.wardActive w || s.deleting w) cDescriptor, s.policyCode w v fixed]
    if code ≠ 0 then .next (s.mgmtDone m code) else
    match s.placePages (.save w) 1 (16 * bits v 83 79 - s.saveFrames w) {} with
    | .error short => .next (s.mgmtDone m cCapacity short)
    | .ok (s, _) =>
      let (s, m) := ((s.keepLimits w).setPolicy w v fixed).ignoredCmd m ignored
      .next (s.mgmtDone m 0)

/-! ### Deletion (R344) -/

/-- Step 1: undispatched requests are cancelled; running tasks stop at their next tile boundary; none of the ward's
requests gets a completion entry. -/
def State.cancelWard (s : State) (w : Nat) : State :=
  let kept := s.requests.filter fun x => decide (x.ward ≠ w) || (decide (x.phase ≠ .waiting) && decide (x.phase ≠ .ready))
  { s with requests := kept.map fun x =>
      if x.ward = w then { x with noCompletion := true, tasks := cancelRest x.tasks.length x.tasks } else x }

/-- Steps 2 and 3: groups, partners, queue pairs and queues of the ward. -/
def State.stripWard (s : State) (w : Nat) : State :=
  let s := (s.coll.groups.filter fun g => decide (g.ward = w)).foldl (fun s g =>
    if g.phase = .activating then s.groupFail { g with act := none } cDescriptor else s.groupDeact g none 0) s
  let s := ((List.range 256).filter fun p => s.flag .expPartnerCfg_ENABLE p && decide (s.rd .expPartnerCfg_WARD p = w)).foldl
    (fun s p => s.disablePartner p) s
  ((s.host.qps.filter fun p => decide (p.2.holder = w)).map (·.1)).foldl (fun s n => s.destroyQp n) s

/-- WARD_DELETE: steps 1 to 3 at once; the rest at and after the next step boundary. -/
def execWardDelete (s : State) : Out :=
  match s.mgmtIs 0x41 with
  | none => .next s
  | some m =>
    let w := m.param 0
    if m.stage ≠ 0 then .next s
    else if w ≥ 512 ∨ s.wardActive w = false ∨ s.deleting w then .next (s.mgmtDone m cDescriptor)
    else
      let s := { s with host := { s.host with mgmt := some { m with stage := 1 } } }
      .next (((s.modWard w fun x => { x with deleting := true }).cancelWard w).stripWard w)

/-- Whether anything keeps a ward that is being deleted: the boundary has yet to come, a cluster is still its or is
being cleared of it, or an operation of one of its groups is open. -/
def State.wardHeld (s : State) (w : Ward) : Bool :=
  !w.released || (s.coll.groups.any fun g => decide (g.ward = w.id)) ||
  s.clusters.any fun c => decide (c.ward = some w.id) || decide (c.outgoing = some w.id) || decide (c.incoming = some w.id)
    || decide (c.next = some (some w.id))

/-- Step 5: every range unmapped, every frame and the save frames freed, the key destroyed, ACTIVE and the counters
cleared; the other fields of WRD_POLICY stay (Table 14.2). -/
def State.endWard (s : State) (w : Ward) : State :=
  let s := s.unmapAll w.id w.maps
  let s := (s.hbm.frames.filter fun f => decide (f.2 = .save w.id) || decide (f.2 = .map w.id)).foldl (fun s f => s.freeFrame f.1) s
  let s := { s with wards := s.wards.filter (fun x => x.id ≠ w.id), requests := s.requests.filter (fun x => x.ward ≠ w.id),
                    images := s.images.filter (fun x => x.ward ≠ w.id) }
  let s := (s.wr .wrdPolicy_ACTIVE w.id 0).clearCounters w.id
  match s.mgmtIs 0x41 with
  | some m => if m.param 0 = w.id then s.mgmtDone m 0 else s
  | none => s

/-- Deletions that nothing holds any more end. -/
def State.finishDeletes (s : State) : State :=
  (s.wards.filter fun w => w.deleting).foldl (fun s w =>
    match s.ward w.id with
    | some x => if s.wardHeld x then s else s.endWard x
    | none => s) s

/-- GROUP_RELEASED (R276): the last open operation of an ending group has ended. -/
def execGroupReleased (g : Nat) (s : State) : Out :=
  match s.group g with
  | some x => Out.when (decide (x.phase = .ending) && !s.groupBusy g) s (s.groupEnd x).finishDeletes
  | none => .next s

end Sys2Proof.Machine
end

