-- ==== Sys2Proof/Machine/Sched.lean ====
section
/-! DEFINITION. The hardware scheduler (R28 to R42, R54 to R57): dispatch of tasks and tiles, the combination of split K,
completion, and the plan of clusters with its handovers (R345). -/
namespace Sys2Proof.Machine

/-! ### Dispatch (R31 to R33, R37, R39) -/

/-- R33: whether a task descriptor breaks a rule. -/
def Task.descBad (x : Task) : Bool :=
  decide (bits (x.word 1) 38 32 ≠ 0) || decide (bits (x.word 2) 15 0 ≠ 0)
    || decide (x.stream % 64 ≠ 0) || decide (x.table % 64 ≠ 0)
    || decide (x.splitK = 0) || decide (x.tileCount = 0) || decide (x.gridN = 0) || decide (x.gridM = 0) || decide (x.gridB = 0)
    || decide (x.tileFirst + x.tileCount > x.gridN * x.gridM * x.gridB * x.splitK)

/-- R31, R33: the code with which a task is refused at dispatch. -/
def State.taskCode (s : State) (x : Task) : Nat :=
  firstCode [
    failIf (decide (x.contract < s.rd .sysContract_LEVEL_MIN) || decide (s.rd .sysContract_LEVEL_MAX < x.contract)) cContract,
    failIf x.descBad cDescriptor]

/-- A task faults at its dispatch; no tile of it has run, and FAULT_TILE is a free value (log entry 2). -/
def State.dispatchFault (s : State) (r t code : Nat) : State :=
  let (s, w) := s.free
  s.faultTask r t code (w.toNat % 2 ^ 24)

/-- The task of a request is dispatched: its unlock state is fixed (R62), expert fields of a locked task are ignored
(R64). -/
def State.dispatchTask (s : State) (x : Request) (t : Nat) (y : Task) : State :=
  let unlocked := s.unlockedFor x.ward
  let ignored := !unlocked && ((y.word 1).testBit 39 || decide (bits (y.word 3) 15 0 ≠ 0))
  let s := s.modTask x.id t fun y =>
    { y with phase := .dispatched, unlocked := unlocked, nextTile := y.tileFirst, ignored := y.ignored || ignored }
  if ignored then s.wr .sysExpertCtl_IGNORED_SEEN 0 1 else s

/-- R37: a task is dispatched once its start signal word has reached START_VALUE, and stays waiting until then.
A word that cannot be read takes the codes of a WAIT (log entry 148). -/
def State.startTask (s : State) (x : Request) (t : Nat) : State :=
  match s.task x.id t with
  | none => s
  | some y =>
    if y.startSig = 0 then s.dispatchTask x t y else
    match s.waitPlace x.ward y.startSig with
    | (0, .phys a) =>
      let (s, bs, d) := s.read a 8
      if d ≠ 0 then s.dispatchFault x.id t d
      else if y.startValue ≤ ofBytes bs then s.dispatchTask x t y else s
    | (0, _) => s.dispatchFault x.id t cProtection
    | (code, _) => s.dispatchFault x.id t code

/-- R39: whether no older request of the ward waits on this die. -/
def State.oldest (s : State) (x : Request) : Bool :=
  !(s.requests.any fun y => decide (y.id < x.id) && decide (y.phase = .waiting) && decide (y.ward = x.ward) && decide (y.die = x.die))

/-- Whether the scheduler takes tasks or tiles from entry t of a request: its own tasks while it waits in turn or runs,
the recompute tasks while it recomputes (R39, R196). -/
def State.serves (s : State) (x : Request) (t : Nat) : Bool :=
  s.isReady && match x.phase with
  | .waiting => decide (t < x.ntask) && s.oldest x
  | .running => decide (t < x.ntask)
  | .recomputing => decide (x.ntask ≤ t)
  | _ => false

/-- TASK_DISPATCH (R32, R33): the descriptor of task t is read and checked; then the task starts, or waits for its start
signal. -/
def execTaskDispatch (r t : Nat) (s : State) : Out :=
  match s.req r, s.task r t with
  | some x, some y =>
    if !s.serves x t || decide (y.phase ≠ .waiting) || y.read then .next s else
    let s := s.modReq r fun x => if x.phase = .waiting then { x with phase := .running } else x
    let (s, bs, code) := s.vread x.ward y.addr 64
    if code ≠ 0 then
      let (s, bs) := State.freeBytes 64 s
      .next ((s.modTask r t fun y => { y with read := true, desc := wordsIn bs }).dispatchFault r t code)
    else
      let y := { y with read := true, desc := wordsIn bs }
      let s := s.modTask r t fun _ => y
      let code := s.taskCode y
      .next (if code ≠ 0 then s.dispatchFault r t code else s.startTask x t)
  | _, _ => .next s

/-- START_SIGNAL_MET (R37): a task that waits for its start signal looks at the word again. -/
def execStartSignalMet (r t : Nat) (s : State) : Out :=
  match s.req r, s.task r t with
  | some x, some y => Out.when (s.serves x t && decide (y.phase = .waiting) && y.read) s (s.startTask x t)
  | _, _ => .next s

/-- Whether core c may take a tile of a ward: usable, idle, and its cluster held by the ward and not being stopped. -/
def State.takesTile (s : State) (c ward : Nat) : Bool :=
  let g := s.cluster (clusterOf c)
  s.usable c && decide ((s.core c).phase = .idle) && decide (g.ward = some ward)
    && (decide (g.handover = .none) || decide (g.handover = .planned))

/-- R39: the next tile of a task in ascending idx, and the task without it. -/
def Task.pull (x : Task) : Option (Nat × Task) :=
  match x.returned with
  | i :: is =>
    let m := is.foldl min i
    some (m, { x with returned := x.returned.erase m })
  | [] => if x.nextTile < x.tileFirst + x.tileCount then some (x.nextTile, { x with nextTile := x.nextTile + 1 }) else none

/-- TILE_PULL (R34, R39): core c takes the next tile of a dispatched task. -/
def execTilePull (c r t : Nat) (s : State) : Out :=
  match s.req r, s.task r t with
  | some x, some y =>
    if !s.serves x t || decide (y.phase ≠ .dispatched) || !s.takesTile c x.ward then .next s else
    match y.pull with
    | none => .next s
    | some (i, y') => .next ((s.modTask r t fun _ => y').startTile c (y.ctx x.ward r t i) y.table .running 0)
  | _, _ => .next s

/-! ### The combination of split K (R36) -/

/-- The core on which a partial's instruction is finished: its registers, its chain, its tumbler streams as they stood
there (R80), no accumulators. -/
def Partial.seat (p : Partial) (t : TileCtx) (k : Core) : Core :=
  { k with tile := some t, t := p.tregs, s := p.sregs, streams := p.streams,
           slots := List.replicate 4 (if p.job.slotted then p.job.chain else []) }

/-- The partials of one instruction joined and finished; code of a fault. -/
def State.combineOne (s : State) (c : Nat) (t : TileCtx) (ps : List Partial) : State × Nat :=
  match ps.getLast? with
  | none => (s, 0)
  | some p =>
    let (j, ev) := joinJobs (ps.map (·.job))
    let k := p.seat t (s.core c)
    let s := (s.setCore c k).raise c t ev
    let k := s.core c
    match p.kind with
    | .epi w =>
      let (s, o, d) := s.epiRun k t w (epiPlan k w) j
      if d ≠ 0 then (s, d) else
      ((s.setCore c { o.core with held := o.core.held ++ o.held }).raiseChain c t o, 0)
    | .kva w =>
      let a := Append.ofBytes p.block
      let (s, tab, tc) := s.kvTab t.ward a.w0
      if tc ≠ 0 then (s, tc) else s.kvaFinish c k t w (kvaPlan k w tab a) j

/-- The tiles of output tile q in a task's range, ascending. -/
def Task.tilesOf (x : Task) (q : Nat) : List Nat :=
  ((List.range x.splitK).map (q * x.splitK + ·)).filter fun i => decide (x.tileFirst ≤ i) && decide (i < x.tileFirst + x.tileCount)

/-- The recorded partials of q, tile by tile in ascending kp. -/
def Task.partsOf (x : Task) (q : Nat) : List (List Partial) :=
  sortBy (fun a b => decide ((a.headD {}).kp < (b.headD {}).kp)) ((x.parts.filter fun p => decide (p.1 = q)).map (·.2))

/-- R36: every partial of output tile q combined instruction by instruction; the result is released as the tile of the
last kp, on whose core it is finished. -/
def State.combine (s : State) (x : Request) (t : Nat) (y : Task) (q : Nat) : State :=
  let ls := y.partsOf q
  let i := (y.tilesOf q).getLastD 0
  let c := (((ls.getLastD []).headD {}).core)
  let ctx := y.ctx x.ward x.id t i
  let n := ls.foldl (fun a l => max a l.length) 0
  let mine := s.core c
  let s := s.setCore c { phase := .running, tile := some ctx, excTask := mine.excTask }
  let (s, code) := (List.range n).foldl (fun (a : State × Nat) m =>
    if a.2 ≠ 0 then a else a.1.combineOne c ctx (ls.filterMap fun l => l[m]?)) (s, 0)
  let done := s.core c
  let s := s.setCore c mine
  let s := s.modTask x.id t fun z =>
    { z with parts := z.parts.filter (fun p => p.1 ≠ q), combined := q :: z.combined }
  if code ≠ 0 then s.faultTask x.id t code i
  else if trapped ctx done.status then s.faultTask x.id t cArithTrap i
  else
    let s := s.releaseHeld c ctx done.held
    let old := Smap.get 0 y.status i
    let s := s.countExc x.ward ((old ||| done.status) - old)
    let s := s.modTask x.id t fun z => { z with status := Smap.put 0 z.status i (old ||| done.status) }
    if done.touched.isEmpty then s else s.exportCheck x.ward

/-- SPLIT_K_COMBINE (R36): once every partial of output tile q is there. -/
def execSplitKCombine (r t q : Nat) (s : State) : Out :=
  match s.req r, s.task r t with
  | some x, some y =>
    let ready := decide (y.phase = .dispatched) && (y.parts.any fun p => decide (p.1 = q))
      && (y.tilesOf q).all fun i => decide (i ∈ y.released)
    Out.when ready s (s.combine x t y q)
  | _, _ => .next s

/-! ### Completion (R37, R54) -/

/-- Whether an operation of a task is on its way (R17). -/
def State.taskBusy (s : State) (r t : Nat) : Bool :=
  (s.cores.any fun k => k.ops.any fun o => decide (o.task = (r, t))) || s.dies.any fun d => d.ops.any fun o => decide (o.task = (r, t))

/-- Whether every tile of a task is released and every split output combined. -/
def Task.allReleased (x : Task) : Bool :=
  decide (x.nextTile = x.tileFirst + x.tileCount) && x.returned.isEmpty && x.parts.isEmpty
    && (List.range x.tileCount).all fun i => decide (x.tileFirst + i ∈ x.released)

/-- R37: 1 added to the done signal word: here, or by an operation to its node that the scheduler waits for. -/
def State.doneSignal (s : State) (x : Request) (t : Nat) (y : Task) : State :=
  let fail (s : State) (code : Nat) : State := s.faultTask x.id t code (y.released.headD 0)
  if y.doneSig = 0 then s else
  match s.signalPlace x.ward y.doneSig with
  | (0, .phys a) =>
    let (s, d) := s.increment a 1
    if d ≠ 0 then fail s d else s
  | (0, .remote n a) =>
    match s.request (signalPacket x.ward n a 1) { task := (x.id, t), tile := y.released.headD 0 } with
    | (s, some o) => let d := s.die x.die; s.setDie x.die { d with ops := d.ops ++ [o] }
    | (s, none) => fail s cUnreachable
  | (0, _) => fail s cProtection
  | (code, _) => fail s code

/-- TASK_COMPLETE (R37, R54). -/
def execTaskComplete (r t : Nat) (s : State) : Out :=
  match s.req r, s.task r t with
  | some x, some y =>
    let ready := decide (y.phase = .dispatched) && y.allReleased && !s.taskBusy r t
    Out.when ready s ((s.modTask r t fun y => { y with phase := .complete }).doneSignal x t y)
  | _, _ => .next s

/-- Whether a task has ended. -/
def Task.ended (x : Task) : Bool :=
  decide (x.phase = .complete) || decide (x.phase = .faulted) || decide (x.phase = .cancelled)

/-- Whether anything of a request still runs, waits in a save image or is on its way. -/
def State.reqBusy (s : State) (r : Nat) : Bool :=
  (s.cores.any fun k => (match k.tile with | some t => decide (t.req = r) | none => false) || k.ops.any fun o => decide (o.task.1 = r))
    || (s.dies.any fun d => d.ops.any fun o => decide (o.task.1 = r))
    || s.images.any fun i => match i.core.tile with | some t => decide (t.req = r) | none => false

/-- R54: the first faulted task of a request in TASK_ID order. -/
def Request.firstFault (x : Request) : Option Task :=
  (x.tasks.filter fun y => decide (y.phase = .faulted)).foldl (fun a y =>
    match a with
    | none => some y
    | some z => if y.taskId < z.taskId then some y else some z) none

/-- R28, R221: how the binding of a request stands: none to wait for, or failed with a code, or not yet done. -/
def State.bindingState (s : State) (x : Request) : Option Nat :=
  match x.binding.bind s.binding with
  | none => some 0
  | some b => if b.failed ≠ 0 then some b.failed else if x.markerDone ∨ b.ended then some 0 else none

/-- The completion of a request whose tasks have ended. -/
def Request.completion (x : Request) (bound : Nat) : Completion :=
  let base : Completion := { tag := x.tag, sq := x.sq, status := bound, began := x.began, req := some x.id,
                             ignored := x.tasks.any (·.ignored) }
  match x.firstFault with
  | some y => { base with status := y.fault, faultTask := y.taskId, faultTile := y.faultTile }
  | none => base

/-- REQUEST_COMPLETE (R54): the request is ready for its completion entry, or gone where it gets none (R338, R344). One
that recomputes goes on with RECOMPUTE_DONE (R196), unless a fault of another kind has ended it. -/
def execRequestComplete (r : Nat) (s : State) : Out :=
  match s.req r with
  | none => .next s
  | some x =>
    let ended := (decide (x.phase = .running) || (decide (x.phase = .recomputing) && x.failed)) && x.tasks.all Task.ended && !s.reqBusy r
    let bound := if x.firstFault.isSome ∨ x.noCompletion then some 0 else s.bindingState x
    match ended, bound with
    | true, some code =>
      let s := if x.phase = .recomputing then s.setRecomp x.ward x.absentTable false else s
      .next (if x.noCompletion then s.dropRequest r
        else (s.modReq r fun x => { x with phase := .ready }).complete x.qpn (x.completion code))
    | _, _ => .next s

/-! ### The plan of clusters (R40, R41) -/

/-- The ward that a plan treats as holding a cluster (R57). -/
def Cluster.holder (c : Cluster) : Option Nat := if c.boundaryPassed then c.incoming else c.ward

/-- The clusters of a die that a plan may give away. -/
def State.freeClusters (s : State) (die : Nat) : List Nat :=
  ((List.range 6).map (6 * die + ·)).filter fun g => !(s.cluster g).excluded && (List.range 8).any fun j => s.usable (8 * g + j)

/-- A ward's claim in a plan: what it asks for and what it has been given. -/
structure Share where
  ward : Nat := 0
  claim : Nat := 0
  least : Nat := 0
  most : Nat := 0
  given : Nat := 0
deriving DecidableEq, Repr

/-- The claims on a die, each ward once, ascending; a ward that is being deleted claims nothing. -/
def State.sharesOf (s : State) (die : Nat) : List Share :=
  ((List.range 512).filter fun w => (s.die die).claims.any (fun x => decide (x.1 = w)) && s.wardActive w && !s.deleting w).map fun w =>
    { ward := w, claim := (((s.die die).claims.filter fun x => decide (x.1 = w)).map (·.2)).foldl (· + ·) 0,
      least := share (s.planLimits w).1 w die, most := share (s.planLimits w).2 w die }

/-- R40: the guaranteed minimum first, in ascending ward ID. -/
def giveLeast : Nat → List Share → Nat × List Share
  | free, [] => (free, [])
  | free, x :: xs =>
    let n := min free (min x.claim x.least)
    let (f, ys) := giveLeast (free - n) xs
    (f, { x with given := n } :: ys)

/-- R40: the next ward in ascending ward ID after the one served last that still wants a cluster. -/
def nextShare (last : Nat) (xs : List Share) : Option Nat :=
  let ws := (xs.filter fun x => decide (x.given < x.claim) && decide (x.given < x.most)).map (·.ward)
  match ws.find? fun w => decide (last < w) with
  | some w => some w
  | none => ws.head?

/-- R40: the clusters left go one at a time. The free number is the fuel. -/
def giveRest : Nat → Nat → List Share → Nat × List Share
  | 0, last, xs => (last, xs)
  | f + 1, last, xs =>
    match nextShare last xs with
    | none => (last, xs)
    | some w => giveRest f w (xs.map fun x => if x.ward = w then { x with given := x.given + 1 } else x)

/-- R40: which clusters the shares become: first those that a ward holds now, then those that no ward holds, then the
others. -/
def State.assign (s : State) (free : List Nat) (xs : List Share) : List (Nat × Nat) :=
  let kept := xs.flatMap fun x => ((free.filter fun g => decide ((s.cluster g).holder = some x.ward)).take x.given).map fun g => (g, x.ward)
  let rest := free.filter fun g => !(kept.any fun k => decide (k.1 = g))
  let pool := (rest.filter fun g => decide ((s.cluster g).holder = none)) ++ rest.filter fun g => decide ((s.cluster g).holder ≠ none)
  let want := xs.flatMap fun x => List.replicate (x.given - kept.countP fun k => decide (k.2 = x.ward)) x.ward
  kept ++ pool.zip want

/-- The plan of one cluster: its next ward, and a handover where its ward loses it (R41). -/
def Cluster.plan (c : Cluster) (next : Option Nat) : Cluster :=
  if c.boundaryPassed ∨ c.ward = none ∨ c.ward = next then { c with next := some next }
  else { c with next := some next, handover := .planned, outgoing := c.ward }

/-- Bytes of a core's save image (R56): 20 KiB, 48 KiB for each live accumulator tile, 4 KiB for each live block of core
memory. Which tiles and blocks the scoreboard marks live no rule says: both counts are free, up to 32 and 512 (log
entries 2 and 134). -/
def State.saveBytes (s : State) : State × Nat :=
  let (s, w) := s.free
  (s, 20480 + 49152 * (w.toNat % 33) + 4096 * (w.toNat / 64 % 513))

/-- R41: the handover lead of a die's plan: 20 us for the stop, the save images of the tiles on clusters that change ward
at 1.2288 TB/s, and 20 us for the clearing; LAST_LEAD_US has it in us, rounded down (log entry 134). -/
def State.noteLead (s : State) (die : Nat) : State :=
  let cores := ((List.range 48).map (48 * die + ·)).filter fun c =>
    decide ((s.cluster (clusterOf c)).handover = .planned) && (s.core c).tile.isSome
  let (s, bytes) := cores.foldl (fun (x : State × Nat) _ => let (s, n) := x.1.saveBytes; (s, x.2 + n)) (s, 0)
  (s.setDie die { s.die die with lead := 16000 + ceilDiv bytes 3072 }).wr .schHandoverStat_LAST_LEAD_US die (40 + bytes / 1228800)

/-- R387: the plan point in SCLK cycles from the declared start of the step. -/
def State.planAt (s : State) (die : Nat) : Nat := s.rd .schPlan_PLAN_POINT die * s.latch.length / 256

/-- R40, R387: whether a die's plan point is reached and its plan of this step not made. -/
def State.planDue (s : State) (die : Nat) : Bool :=
  s.sclk && s.isReady && !decide (die ∈ s.latch.planned) && decide (s.planAt die ≤ s.latch.ran)

/-- R40: the clusters of a die assigned for the next step. -/
def State.planDie (s : State) (die : Nat) : State :=
  let free := s.freeClusters die
  let (left, xs) := giveLeast free.length (s.sharesOf die)
  let d := s.die die
  let (last, xs) := giveRest left d.lastServed xs
  let got := s.assign free xs
  let goes (g : Nat) : Option Nat := (got.find? fun x => decide (x.1 = g)).map (·.2)
  let s := (List.range 6).foldl (fun (s : State) j => let g := 6 * die + j; s.setCluster g ((s.cluster g).plan (goes g))) s
  let s := s.setDie die { d with claims := [], lastServed := last }
  { s with latch := { s.latch with planned := die :: s.latch.planned } }.noteLead die

/-- PLAN_POINT (R40), once in a step. -/
def execPlanPoint (die : Nat) (s : State) : Out := Out.when (s.planDue die) s (s.planDie die)

/-- CLAIM (R40): it counts at the next plan point. -/
def execClaim (die ward n : Nat) (s : State) : Out :=
  let d := s.die die
  Out.when (s.wardActive ward && !s.deleting ward) s (s.setDie die { d with claims := d.claims ++ [(ward, n)] })

/-! ### Handover (R41, R42, R55, R56, R345) -/

/-- The cores of a cluster. -/
def coresOf (g : Nat) : List Nat := (List.range 8).map (8 * g + ·)

/-- R41: whether the pre-emption of a cluster is due: the boundary is no further off than the handover lead of its die's
plan, or has passed. -/
def State.preemptDue (s : State) (g : Nat) : Bool :=
  (s.cluster g).boundaryPassed || decide (s.latch.length ≤ s.latch.since + (s.die (dieOf g)).lead)

/-- PREEMPTION_REQUEST (R41, R55): the cores of a cluster that changes ward stop issuing; one that waits keeps what it
waits for (R57). -/
def execPreemptionRequest (g : Nat) (s : State) : Out :=
  let x := s.cluster g
  let stop (s : State) (c : Nat) : State :=
    let k := s.core c
    if k.phase = .running ∨ k.phase = .waiting then s.setCore c { k with phase := .stopping } else s
  Out.when (decide (x.handover = .planned) && s.preemptDue g) s ((coresOf g).foldl stop (s.setCluster g { x with handover := .stopping }))

/-- CORE_STOPPED (R55): every operation of the core has completed. -/
def execCoreStopped (c : Nat) (s : State) : Out :=
  let k := s.core c
  Out.when (decide (k.phase = .stopping) && k.ops.isEmpty) s (s.setCore c { k with phase := .stopped })

/-- The number of a new save image. -/
def State.newImage (s : State) : Nat := s.images.foldl (fun a i => max a i.id) 0 + 1

/-- R55: the first part of a ward's save area that holds no image: one part per core that the ward may hold. -/
def State.freeArea (s : State) (ward : Nat) : Nat :=
  let used := (s.images.filter fun i => i.ward = ward).map (·.area)
  ((List.range (used.length + 1)).find? fun a => decide (a ∉ used)).getD 0

/-- Whether the ward's save area has room for one more image: two frames of 2 MiB per core (R55, R340). -/
def State.hasArea (s : State) (ward : Nat) : Bool := decide (2 * (s.freeArea ward + 1) ≤ s.saveFrames ward)

/-- The save image of core c (R56). -/
def State.imageOf (s : State) (c ward : Nat) : SaveImage :=
  let a := coreAddr c
  { id := s.newImage, ward := ward, area := s.freeArea ward, core := s.core c,
    mem := (Smap.within s.mem a (2 ^ 21)).map fun x => (x.1 - a, x.2),
    marks := (Smap.within s.marks (a / 8) (2 ^ 18)).map fun x => (x.1 - a / 8, x.2) }

/-- SAVE_IMAGE_WRITTEN (R55, R56): the state of a stopped core stands in a free part of its ward's save area. No rule
gives the image's bytes an order and no requester reads them: they are kept as a record (log entry 135). -/
def execSaveImageWritten (c : Nat) (s : State) : Out :=
  let k := s.core c
  match k.phase, k.tile with
  | .stopped, some t =>
    Out.when (s.hasArea t.ward) s ({ s with images := s.images ++ [s.imageOf c t.ward] }.setCore c { phase := .saved, engines := k.tags })
  | _, _ => .next s

/-- R345: every word of a cluster's memories zero and sound, every register of its cores clear; a damaged word is
reported as a read reports it. -/
def State.clearCluster (s : State) (g : Nat) : State :=
  let areas := (coreAddr (8 * g), 2 ^ 24) :: [(clusterBase + g * 2 ^ 23, 2 ^ 23)]
  let s := areas.foldl (fun (s : State) a =>
    ((Smap.within s.marks (a.1 / 8) (a.2 / 8)).map (·.1 * 8)).foldl State.touchWord s) s
  let s := areas.foldl (fun (s : State) a => s.zero a.1 a.2) s
  (coresOf g).foldl (fun s c => s.setCore c {}) s

/-- R42: a late handover counted with its length in us. -/
def State.countLate (s : State) (g : Nat) : State :=
  let d := dieOf g
  let late := (s.raw - (s.cluster g).seenAt) / 1000
  (s.bump .schHandoverStat_LATE_COUNT d).wr .schHandoverStat_LAST_LATE_US d (satN 16 late)

/-- R441: the CCLK of a cluster that has a ward runs: clears of its exception records that waited for it take effect. -/
def State.ungate (s : State) (g : Nat) : State :=
  let x := s.cluster g
  if x.ward = none then s else
  (x.clears.foldl (fun s c => s.wr .coreExcRecord_VALID c 0) s).setCluster g { x with clears := [] }

/-- CLUSTER_CLEARING (R345): the cluster is cleared; one that is late starts with its new ward now, any other waits for
the boundary. -/
def execClusterClearing (g : Nat) (s : State) : Out :=
  let x := s.cluster g
  let idle := (coresOf g).all fun c => (decide ((s.core c).phase = .idle) || decide ((s.core c).phase = .saved)) && (s.core c).ops.isEmpty
  if x.handover ≠ .stopping ∨ !idle then .next s else
  let s := s.clearCluster g
  if x.boundaryPassed then
    let late := !((x.outgoing.map s.deleting).getD false)
    let s := if late then s.countLate g else s
    let x := { x with ward := x.incoming, incoming := none, outgoing := none, boundaryPassed := false, handover := .none, wiped := true }
    let x := match x.next with | some n => x.plan n | none => x
    .next ((s.setCluster g x).ungate g).finishDeletes
  else .next (s.setCluster g { x with ward := none, handover := .cleared, wiped := true })

/-- An address moved with its tile from the core memory at 2 MiB window `old` to that at `new` (R56). -/
def moveAddr (old new a : Nat) : Nat := if a / 2 ^ 21 = old then new * 2 ^ 21 + a % 2 ^ 21 else a

/-- R56: a saved core as it continues on core c: what it holds of its own memory is there now, its replay on that core
counts (R113, R115), and the engines are that core's. -/
def Core.resumeOn (k : Core) (node c : Nat) (engines : List Engine) : Core :=
  let seat := (node * 2 ^ 52 + coreAddr c) / 2 ^ 21
  let old := (k.tile.map (·.seat)).getD seat
  let far := moveAddr old seat
  let near := moveAddr (old % 2 ^ 31) (seat % 2 ^ 31)
  let loc : Loc → Loc
    | .phys a => .phys (near a)
    | l => l
  let tile := k.tile.map fun t => { t with seat := seat }
  { k with
    phase := if k.wait.isSome then .waiting else .running
    tile := tile
    held := k.held.map fun
      | .write l data p => .write (loc l) data p
      | .signal l n => .signal (loc l) n
      | h => h
    deferred := k.deferred.map fun d => { d with addr := far d.addr }
    merges := k.merges.map fun g => { g with stat := far g.stat, header := far g.header, sig := far g.sig }
    wait := k.wait.map fun
      | .signal a v => .signal (near a) v
      | w => w
    replays := if tile.any fun t => decide (c ∈ t.replayed) then 1 else 0
    engines := engines }

/-- TASK_RESUME (R56): a save image restored into core c, any core of its ward; it continues where it stopped, and a
wait is checked again (R57). -/
def execTaskResume (c img : Nat) (s : State) : Out :=
  match s.images.find? fun i => i.id = img with
  | none => .next s
  | some i =>
    if !s.takesTile c i.ward || !(s.core c).ops.isEmpty then .next s else
    let a := coreAddr c
    let s := if (s.core c).excTask = i.core.excTask then s else s.wr .coreExcRecord_VALID c 0
    let s := s.zero a (2 ^ 21)
    let s := { s with mem := Smap.putAll 0 s.mem (i.mem.map fun (x : Nat × Byte) => (a + x.1, x.2)),
                      marks := Smap.putAll {} s.marks (i.marks.map fun (x : Nat × WordMark) => (a / 8 + x.1, x.2)),
                      images := s.images.filter fun j => j.id ≠ img }
    .next (s.setCore c (i.core.resumeOn s.node c (s.core c).engines))

/-- The ward that held a cluster before a change is kept for the estimation window in which it fell. -/
def Cluster.changed (c : Cluster) (old : Option Nat) : Cluster :=
  if c.assigned = old then c else { c with earlier := some (c.earlier.getD old) }

/-- STEP_BOUNDARY_SEEN (R22, R387): a cluster acts on the declared boundary: it goes to its next ward, or is late (R42),
or is taken from a ward that is being deleted (R344). -/
def execStepBoundarySeen (g : Nat) (s : State) : Out :=
  if g ∉ s.latch.unseen then .next s else
  let s := { s with latch := { s.latch with unseen := s.latch.unseen.erase g } }
  let x := s.cluster g
  let out (x : Cluster) : Cluster := ({ x with ward := none, outgoing := x.ward, incoming := x.next.getD none, next := none,
                                                boundaryPassed := true, seenAt := s.raw } : Cluster).changed x.assigned
  if (x.ward.map s.deleting).getD false then
    let s := (coresOf g).foldl State.discardTile s
    .next (s.setCluster g { out x with handover := .stopping })
  else if x.handover = .planned ∨ x.handover = .stopping then
    .next (s.setCluster g (if x.boundaryPassed then { x with incoming := x.next.getD x.incoming, next := none } else out x))
  else
    let y : Cluster := { x with ward := x.next.getD x.ward, next := none, handover := .none, outgoing := none }
    .next ((s.setCluster g (y.changed x.assigned)).ungate g).finishDeletes

end Sys2Proof.Machine
end

