-- ==== Sys2Proof/Machine/Steps.lean ====
section
/-! DEFINITION. The step latch (R384 to R388, R466) and what acts at a declared boundary. -/
namespace Sys2Proof.Machine

/-- Whether the step latch runs: from the ready report on, until the device stops (R466). -/
def State.latchRuns (s : State) : Bool := s.sclk && s.isReady

/-- Step length in SCLK of CLK_STEP_CFG (R384). -/
def State.stepLength (s : State) : Nat := s.rd .clkStepCfg_LENGTH_US * 400

/-- R383: a ward's energy of the step that ends, and its mean budget; R370, R343: its fractions for the new step; a
ward's tables of the step forgotten (R194), a deletion released (R344). -/
def State.wardBoundary (s : State) (w : Ward) : State :=
  let p := s.power
  let mean : Rat := if p.windows = 0 then 0 else Smap.get 0 p.budgetSum w.id / (p.windows : Rat)
  let s := s.wr .wrdEnergy_LAST_STEP w.id (satN 32 (energyCode (Smap.get 0 p.stepEnergy w.id)))
  let s := s.wr .wrdEnergy_LAST_BUDGET_W w.id (wattsCode 12 mean)
  s.modWard w.id fun x => { x with powerFrac := s.rd .wrdPolicy_POWER_FRAC w.id, bwFrac := s.rd .wrdPolicy_BW_FRAC w.id,
                                   bwFixed := s.flag .wrdPolicy_BW_FIXED w.id, stepTables := [], released := x.deleting }

/-- A declared boundary (R384, R387); `used` tells whether its window has acted already. -/
def State.declareStep (s : State) (used : Bool) : State :=
  let s := s.wr .clkStepStat_STEP_COUNT 0 (s.rd .clkStepStat_STEP_COUNT + 1)
  let s := s.wards.foldl State.wardBoundary s
  let s := { s with power := { s.power with stepEnergy := [], budgetSum := [], windows := 0 } }
  let gone (w : Option Nat) : Bool := match w with | some w => s.deleting w | none => false
  let keep (c : Cluster) : Cluster := if (c.next.map gone).getD false then { c with next := some none } else c
  let s := { s with clusters := s.clusters.map keep }
  { s with latch := { s.latch with since := 0, ran := 0, edge := false, out := 16, usedWindow := used, declared := true, length := s.stepLength, planned := [],
                                   unseen := List.range 24 } }.finishDeletes

/-- STEP_BOUNDARY (R384): the count has reached the step length; never twice in a cycle (R386). -/
def execStepBoundary (s : State) : Out :=
  Out.when (s.latchRuns && decide (s.latch.since = s.latch.length)) s (s.declareStep s.latch.edge)

/-- R387: plans that fall in this very cycle are made before a boundary is declared in it. -/
def State.planFirst (s : State) : State :=
  ((List.range 4).filter fun d => s.planDue d && decide (s.planAt d = s.latch.ran)).foldl State.planDie s

/-- LAST_ADJ: a signed number of SCLK. -/
def State.setAdj (s : State) (x : Int) : State := s.wr .clkStepStat_LAST_ADJ 0 (unsignedOf 32 x)

/-- STEP_SYNC_EDGE (R385, R386): an edge in the boundary's own cycle, before or after its declaration, counts for the next
boundary; one before the boundary pulls it, one after it pushes the count; any other is outside. -/
def execStepSyncEdge (s : State) : Out :=
  let l := s.latch
  if s.latchRuns = false ∨ s.flag .clkStepCfg_SYNC_EN = false then .next s
  else if l.since = 0 ∧ l.declared ∧ l.usedWindow = false then
    .next ({ s with latch := { l with usedWindow := true } }.bump .clkStepSyncStat_COINCIDENT)
  else if l.since = l.length ∧ l.edge = false then
    .next ({ s with latch := { l with edge := true } }.bump .clkStepSyncStat_COINCIDENT)
  else if l.length - l.length / 8 ≤ l.since ∧ l.since < l.length then
    .next (((s.bump .clkStepSyncStat_PULLS).setAdj ((l.since : Int) - l.length)).planFirst.declareStep true)
  else if l.declared ∧ l.usedWindow = false ∧ l.since < l.length / 8 then
    .next (({ s with latch := { l with since := 0, usedWindow := true } }.bump .clkStepSyncStat_PUSHES).setAdj l.since)
  else .next (s.bump .clkStepSyncStat_OUTSIDE)

end Sys2Proof.Machine
end

