-- ==== Sys2Proof/Machine/Start.lean ====
section
/-! DEFINITION. Start-up and restart (R422 to R438), the boot chain and the identity (R351 to R360), and the journal
writer's appends, which a restart may follow. -/
namespace Sys2Proof.Machine

/-! ### Supplies, reset and clock (R422, R423) -/

/-- Step 3 begins: every register at its reset value (R450), the trouble log clear, time 0, and everything that lived in
the device ended (R435). What flash, the pins, the I3C target and the TAP hold stays; stored bytes stay until steps 6 and
7 clear them. -/
def State.begin (s : State) (cause : Nat) : State :=
  let s := { State.reset with
    pending := s.pending, freeCount := s.freeCount, mem := s.mem, marks := s.marks, flash := s.flash,
    sec := { randoms := s.sec.randoms }, side := { s.side with staged := [] }, jtag := s.jtag,
    boot := { phase := .step 3, pwrGood := s.boot.pwrGood, resetN := s.boot.resetN, thermtrip := s.boot.thermtrip,
              clocks := true, cause := cause } }
  s.wr .sysStartStat_CAUSE 0 cause

/-- The supply groups in the order of Table 18.1. -/
def supplyOrder : List Nat := [1, 2, 3, 4, 5]

/-- POWER_ON (R422): supplies up in order and PWR_GOOD raised. For any other order the spec guarantees nothing (R459). -/
def execPowerOn (order : List Nat) (s : State) : Out :=
  if s.boot.pwrGood then .next s
  else if order ≠ supplyOrder then .fault .supplyOrder
  else .next { s with boot := { s.boot with pwrGood := true, thermtrip := false, clocks := false, cause := 0,
                                            phase := if s.boot.resetN then .armed else .held } }

/-- PWR_GOOD_FALL (R423): every clock stops; nothing is written. -/
def execPwrGoodFall (s : State) : Out :=
  Out.when s.boot.pwrGood s { s.halted with boot := { s.boot with pwrGood := false, clocks := false, phase := .off } }

/-- RESET_N_ASSERT (R423, R438, R381): the device is held; a shutdown in progress is abandoned. -/
def execResetNAssert (s : State) : Out :=
  let boot : Boot := { s.boot with resetN := false, clocks := false, thermtrip := false, cause := 1, phase := if s.boot.pwrGood then .held else .off }
  Out.when s.boot.resetN s { s.halted with boot := boot, side := {} }

/-- RESET_N_RELEASE (R423, R424): the start is armed once PWR_GOOD is there; the I3C target may ask to join (R451), and
JTAG lets go of the pins (R468). -/
def execResetNRelease (s : State) : Out :=
  Out.when (!s.boot.resetN) s { s with boot := { s.boot with resetN := true, phase := if s.boot.pwrGood then .armed else .off },
                                       side := { s.side with mayJoin := true },
                                       jtag := { s.jtag with driven := none, hiz := false } }

/-- CLOCK_DETECTED (R423): step 3 begins. -/
def execClockDetected (s : State) : Out :=
  Out.when (decide (s.boot.phase = .armed) && s.boot.pwrGood && s.boot.resetN) s (s.begin s.boot.cause)

/-! ### Steps -/

/-- The start goes on with step n. -/
def State.toStep (s : State) (n : Nat) : State :=
  ({ s with boot := { s.boot with phase := .step n } } : State).wr .sysStartStat_STEP 0 n

/-- R426, R435: the start stops before the ready report: STATE 3, and the I3C stopped notice. -/
def State.stopStart (s : State) : State :=
  ({ s with boot := { s.boot with phase := .stopped }, side := { s.side with ibi := s.side.ibi ++ [0xAF] } } : State).wr
    .sysStartStat_STATE 0 3

/-- The entry of a stop that has no source of its own: SOURCE 0x0D and the step; Table 16.5 gives it no event, and its
severity, event and detail are free values (log entry 2). -/
def State.stopEntry (s : State) (step : Nat) : State :=
  let (s, sev) := s.free
  let (s, ev) := s.free
  let (s, det) := s.free
  s.event 0x0D step (sev.toNat % 4) 0xFFFF (ev.toNat % 2 ^ 16) det.toNat

/-- Whether a start stands at step n. -/
def State.atStep (s : State) (n : Nat) : Bool := decide (s.boot.phase = .step n)

/-! ### Step 3: the boot chain (R351 to R355) -/

/-- Offset of a firmware slot in flash. -/
def slotBase (slot : Nat) : Nat := if slot = 0 then 0 else 0x800000

/-- An image header's fields (Table 14.7) and the measured record (R355). -/
structure ImageHead where
  bytes : List Byte := []
deriving DecidableEq, Repr

def ImageHead.stage (h : ImageHead) : Nat := ofBytes (h.bytes.take 1)
def ImageHead.svn (h : ImageHead) : Nat := ofBytes (sliceOf h.bytes 2 2)
def ImageHead.length (h : ImageHead) : Nat := ofBytes (sliceOf h.bytes 8 4)
def ImageHead.hash (h : ImageHead) : List Byte := sliceOf h.bytes 16 64

/-- R355: the stage record. -/
def ImageHead.record (h : ImageHead) (slot : Nat) : List Byte :=
  sliceOf h.bytes 4 4 ++ sliceOf h.bytes 2 2 ++ bytesOf 1 h.stage ++ bytesOf 1 slot ++ sliceOf h.bytes 8 4 ++ bytesOf 4 0

/-- R353: whether an image of a stage passes verification. -/
def ImageHead.passes (h : ImageHead) (stage : Nat) (image : List Byte) : Bool :=
  let part (lo n : Nat) : List Byte := sliceOf h.bytes lo n
  decide (digest (part 80 132) = bytesOf 64 Config.rootHash.toNat)
    && Config.ecdsaVerify (part 80 132) (part 212 132) (part 344 132)
    && Config.ecdsaVerify (part 212 132) (h.bytes.take 476) (part 476 132)
    && decide (h.stage = stage) && (part 1 1 ++ part 12 4 ++ part 608 32).all (fun b => decide (b = 0))
    && decide (digest image = h.hash)

/-- The five images of a bundle, one after another in the order of their stages: headers and images. -/
def splitBundle : Nat → List Byte → List (ImageHead × List Byte)
  | 0, _ => []
  | k + 1, bs =>
    let h : ImageHead := { bytes := bs.take 640 }
    (h, sliceOf bs 640 h.length) :: splitBundle k (bs.drop (640 + h.length))

/-- The first stage of a bundle that fails verification (R353). -/
def failedStage (l : List (ImageHead × List Byte)) : Option Nat :=
  (List.range 5).find? fun i => !(match l[i]? with | some x => x.1.passes (i + 1) x.2 | none => false)

/-- Whether a slot has the valid mark, and its SEQ (R354). -/
def State.slotValid (s : State) (slot : Nat) : Bool := decide (s.flashByte (slotBase slot + 63) = 0xA5)
def State.slotSeqOf (s : State) (slot : Nat) : Nat := ofBytes (s.flashRead (slotBase slot) 4)

/-- The images of a slot: bytes [7:4] of its record give the offset of the first. -/
def State.slotImages (s : State) (slot : Nat) : List (ImageHead × List Byte) :=
  let off := ofBytes (s.flashRead (slotBase slot + 4) 4)
  splitBundle 5 (s.flashRead (slotBase slot + off) (0x800000 - off))

/-- The stage at which a slot fails: 0 for want of the valid mark; none where it runs. -/
def State.slotFails (s : State) (slot : Nat) : Option Nat :=
  if s.slotValid slot then (failedStage (s.slotImages slot)).map (· + 1) else some 0

/-- R354: the slot tried first: the one with the mark and the higher SEQ. -/
def State.firstSlot (s : State) : Nat :=
  if s.slotValid 1 && (!s.slotValid 0 || decide (s.slotSeqOf 1 > s.slotSeqOf 0)) then 1 else 0

/-- SLOT_FALLBACK (R354). -/
def State.slotFallback (s : State) (slot stage : Nat) : State := s.event 0x0B stage 2 0xFFFF 0x40 slot

/-- R354: the slot that runs, with an entry for each one excluded. -/
def State.chooseSlot (s : State) : State × Option Nat :=
  let a := s.firstSlot
  match s.slotFails a with
  | none => (s, some a)
  | some st =>
    let s := (s.slotFallback a st).wr .secStat_FALLBACK 0 1
    match s.slotFails (1 - a) with
    | none => (s, some (1 - a))
    | some st => (s.slotFallback (1 - a) st, none)

/-- R355: the measurement. -/
def measure (slot : Nat) (l : List (ImageHead × List Byte)) : List Byte :=
  l.foldl (fun m x => digest (m ++ x.1.record slot ++ x.1.hash)) (List.replicate 64 0)

/-- Order of the P-521 group (R351). -/
def p521Order : Nat :=
  0x1FFFFFFFFFFFFFFFFFFFFFFFFFFFFFFFFFFFFFFFFFFFFFFFFFFFFFFFFFFFFFFFFFFFA51868783BF2F966B7FCC0148F709A5D03BB5C9B8899C47AEBB6FB71E91386409

/-- The identity region of the flash, 64 KiB, by offset (R351). -/
def State.identityRegion (s : State) : List (Nat × Byte) := Smap.within s.flash 0x1000000 0x10000

/-- R351: the private identity key of a PUF secret. -/
def identityKey (r : List Byte) : List Byte :=
  (bytesOf 66 (ofBytesBE (Config.hkdf r [0] [1] 66) % (p521Order - 1) + 1)).reverse

/-- A slot's firmware running: stages, SVNs, measurement and what SEC_STAT says of the slots. -/
def State.runSlot (s : State) (slot : Nat) : State :=
  let l := s.slotImages slot
  let sec : Security := { s.sec with stages := l.map fun x => x.1.record slot, svns := l.map fun x => x.1.svn,
                                     measurement := measure slot l, slotSeq := s.slotSeqOf slot }
  let newer := s.slotValid (1 - slot) && decide (s.slotSeqOf (1 - slot) > s.slotSeqOf slot)
  (({ s with sec := sec } : State).wr .secStat_BOOT_SLOT 0 slot).wr .secStat_UPDATE_PENDING 0 (if newer then 1 else 0)

/-- Derivations of the identity that the security processor tries (R352): the first and three repetitions. -/
def identityTries : Nat := 4

/-- R351, R352: the identity derived, or the start stopped. -/
def State.takeIdentity (s : State) (puf : Option (List Byte)) : State :=
  let stop (s : State) : State :=
    let (s, w) := s.free
    ((s.wr .secStat_IDENTITY 0 2).event 0x0B (w.toNat % 6) 3 0xFFFF 0x41 identityTries).stopStart
  match puf with
  | none => stop s
  | some r =>
    let d := identityKey r
    let q := Config.ecdsaPublic d
    if Config.sha512 q ≠ Config.identityCheck s.identityRegion then stop s else
    let sec : Security := { s.sec with identityPriv := d, identityPub := q, storageKey := Config.hkdf r [0] [2] 64 }
    let s := (({ s with sec := sec } : State).wr .secStat_IDENTITY 0 1).wr .secStat_DEVICE_ID 0 (ofBytes ((digest q).take 4))
    (s.wr .sysStartStat_GRADE 0 (if Config.certGrade s.identityRegion then 1 else 0)).toStep 4

/-- BOOT_ROM (R427, R351 to R355). -/
def execBootRom (puf : Option (List Byte)) (s : State) : Out :=
  if s.atStep 3 = false then .next s else
  match s.chooseSlot with
  | (s, none) => .next s.stopStart
  | (s, some slot) => .next ((s.runSlot slot).takeIdentity puf)

/-! ### Steps 4 to 7 -/

/-- VDD_C at boot, in mV (Table 20.3). -/
def bootVdd : Nat := 900

/-- DEVICE_CONTROLLER_UP (R427, R462): a VDD_C regulator that never answers stops the start. -/
def execDeviceControllerUp (vddcAnswers : List Bool) (s : State) : Out :=
  if s.atStep 4 = false then .next s
  else if vddcAnswers.length ≠ 4 ∨ vddcAnswers.any (! ·) then .next (s.stopEntry 4).stopStart
  else
    let dies := s.dies.map fun d => { d with vdd := bootVdd, vddTarget := bootVdd }
    let s := { s with dies := dies }
    .next (s.toStep 5)

/-- JOURNAL_RECOVERY (R428, R419). -/
def execJournalRecovery (s : State) : Out := Out.when (s.atStep 5) s (s.recover.toStep 6)

/-- Frames of a device region (R233). -/
def deviceFrames : Nat := 128

/-- The highest live pseudo-channel of a stack. -/
def State.topPc (s : State) (stack : Nat) : Option Nat :=
  (List.range 32).reverse.find? fun p => s.live (32 * stack + p)

/-- The device region of a stack placed (R233). -/
def State.placeDevice (s : State) (stack : Nat) : State :=
  match s.topPc stack with
  | none => s
  | some p =>
    let first := (32 * stack + p) * 2048 + (2048 - deviceFrames)
    let frames := (List.range deviceFrames).foldl (fun m i => Smap.put .free m (first + i) .device) s.hbm.frames
    ({ s with hbm := { s.hbm with frames := frames } } : State).wr .hbmPcMap_DEVICE_PC stack p

/-- Live pseudo-channels of a stack. -/
def State.liveCount (s : State) (stack : Nat) : Nat := popcount 32 (s.rd .hbmPcMap_LIVE stack)

/-- R429: pseudo-channels trained, those that failed reported, HBM cleared, the device regions placed under a fresh
device key (R244). -/
def State.trainHbm (s : State) (failed : List Nat) : State :=
  let map (stack : Nat) : Nat := ((List.range 32).map fun p => if 32 * stack + p ∈ failed then 0 else 2 ^ p).foldl (· + ·) 0
  let s := [0, 1, 2, 3].foldl (fun s t => s.wr .hbmPcMap_LIVE t (map t)) s
  let s := ((List.range 128).filter fun pc => decide (pc ∈ failed)).foldl (fun s pc => s.event 0x01 pc 3 0xFFFF 0x04 (4 * 2 ^ 60)) s
  let s := { s with mem := Smap.clear s.mem hbmBase (2 ^ 39), marks := Smap.clear s.marks (hbmBase / 8) (2 ^ 36) }
  let s := [0, 1, 2, 3].foldl State.placeDevice s
  let stackList := [0, 1, 2, 3].filter s.liveStack
  let total := (stackList.map fun t => s.liveCount t * 2048 - deviceFrames).foldl (· + ·) 0
  let s := { s with hbm := { s.hbm with copies := stackList.take 2 }
                    sec := { s.sec with deviceKey := Config.random s.sec.randoms, randoms := s.sec.randoms + 1 } }
  (s.wr .memCapacity_TOTAL_FRAMES 0 total).wr .memCapacity_FREE_FRAMES 0 total

/-- HBM_TRAINING (R429, R426). -/
def execHbmTraining (failed : List Nat) (s : State) : Out :=
  if s.atStep 6 = false then .next s else
  let s := s.trainHbm failed
  .next (if ([0, 1, 2, 3].filter s.liveStack).length < 2 then (s.stopEntry 6).stopStart else s.toStep 7)

/-- R430: the enabled-core map. -/
def coreMapOf (t : SelfTest) : Nat :=
  ((List.range 192).map fun i => if i ∈ t.failedCores ∨ i / 8 ∈ t.failedClusters then 0 else 2 ^ i).foldl (· + ·) 0

/-- Least enabled cores of the grade (R1, R2). -/
def State.gradeMin (s : State) : Nat := if s.rd .sysStartStat_GRADE = 0 then 192 else 176

/-- Whether this start is degraded (R431). -/
def State.degraded (s : State) : Bool := decide (s.rd .sysStartStat_ENABLED < s.gradeMin)

/-- The weights of a die in PWR_WEIGHT (R367). -/
def State.setWeights (s : State) (l : List (List Nat)) : State :=
  (List.range 6).foldl (fun s d =>
    ((l.getD d []).mapIdx fun n w => (n, w)).foldl (fun s x => s.wr .pwrWeight_WEIGHT (64 * d + x.1) x.2) s) s

/-- What self-test and calibration leave (R430, R363, R366, R367). -/
def State.tested (s : State) (t : SelfTest) : State :=
  let s := { s with mem := [], marks := [], hbm := { s.hbm with slotsRemoved := t.failedSlots.eraseDups },
                    power := { s.power with dyn := t.dyn, leak := t.leak, volts := t.volts, weights := t.weights } }
  let s := (((s.setFree 0).setFree 1).setWeights t.weights).wr .pwrStat_CAL_OK 0 (if t.calOk then 1 else 0)
  let s := (List.range 24).foldl (fun s g => s.wr .clkClusterStat_VOLT_MV g (s.volt g (s.rd .clkClusterStat_FREQ g))) s
  let s := (List.range 4).foldl State.askVdd s
  (s.wr .sysCoreMap_MAP 0 (coreMapOf t)).wr .sysStartStat_ENABLED 0 (popcount 192 (coreMapOf t))

/-- SELF_TEST (R430, R431). -/
def execSelfTest (result : SelfTest) (s : State) : Out :=
  if s.atStep 7 = false then .next s else
  let s := s.tested result
  .next ((if s.degraded then s.event 0x0D 7 3 0xFFFF 0x50 (s.rd .sysStartStat_ENABLED) else s).toStep 8)

/-! ### Steps 8 and 9 -/

/-- One hinge port at the end of step 8 (R432, R433): disabled on an axis of length 1, else up, waiting or left. -/
def State.trainPort (s : State) (port : Nat) (t : HingeTrain) : State :=
  if s.flag .hngTorusCfg_VALID = false ∨ s.axisLen (port / 2) ≤ 1 then s else
  let s := (s.wr .hngPortStat_STATE port 1).wr .sysStartStat_WAITING 0 (s.rd .sysStartStat_WAITING ||| 2 ^ port)
  match t with
  | .noSignal => s
  | .failed => (s.identify port).portLeft port
  | .done node peer => (s.identify port).portTrained port node peer

/-- The die links that failed, each with its entry (R16, R396). -/
def State.dieLinksDown (s : State) (failed : List Nat) : State :=
  ((List.range 8).filter fun l => decide (l ∈ failed)).foldl (fun s l => s.event 0x09 l 3 0xFFFF 0x24 0) s

/-- LINK_TRAINING (R432, R16, R426): a die link that fails stops the start. -/
def execLinkTraining (dieLinksFailed : List Nat) (hinge : List HingeTrain) (hostUp : Bool) (s : State) : Out :=
  if s.atStep 8 = false then .next s else
  let s := { s with boot := { s.boot with dieLinksUp := (List.range 8).map fun l => !decide (l ∈ dieLinksFailed) } }
  if (List.range 8).any fun l => decide (l ∈ dieLinksFailed) then .next (s.dieLinksDown dieLinksFailed).stopStart else
  let s := (List.range 6).foldl (fun s p => s.trainPort p (hinge.getD p .noSignal)) s
  .next ((s.wr .hostPortStat_LINK 0 (if hostUp then 2 else 1)).toStep 9)

/-- R434: the ready notice in queue pair 0's completion ring. -/
def State.readyNotice (s : State) : State :=
  let d := s.rd .sysStartStat_ENABLED + (if s.degraded then 256 else 0) + s.rd .sysStartStat_GRADE * 512
  s.complete 0 { tag := 0xFFFFFFFE, sq := 0xFFFF, detail := d, notice := true }

/-- R434, R466: ready: STATE, READY_MS, the interrupt, the step latch counting. -/
def State.ready (s : State) : State :=
  let s := (s.wr .sysStartStat_STATE 0 (if s.degraded then 2 else 1)).wr .sysStartStat_READY_MS 0 (satN 32 (s.raw / 1000000))
  let s := { s with boot := { s.boot with phase := .ready }, side := { s.side with ibi := s.side.ibi ++ [if s.degraded then 0xA1 else 0xA0] },
                    latch := { s.latch with since := 0, ran := 0, edge := false, length := s.stepLength, declared := false, usedWindow := false, planned := [], unseen := [] } }
  State.nextMgmt 2048 { s with boot := { s.boot with readyNotice := true } }

/-- READY_REPORT (R434). -/
def execReadyReport (s : State) : Out := Out.when (s.atStep 9) s s.ready

/-- START_STEP_TIMEOUT (R425, R426): the step in progress exceeds its maximum. -/
def execStartStepTimeout (s : State) : Out :=
  Out.when (decide (3 ≤ s.boot.phase.stepNo)) s (s.stopEntry s.boot.phase.stepNo).stopStart

/-! ### Restarts (R435 to R438) -/

/-- R437: the leave control flit on every up hinge port, and step 3. -/
def State.restart (s : State) (cause : Nat) : State :=
  let up := (List.range 6).map fun p => decide (s.rd .hngPortStat_STATE p = 2)
  let s := s.begin cause
  { s with hinge := { s.hinge with ports := up.map fun b => if b then { controls := [.leave] } else {} } }

/-- An orderly restart shuts down first (R416); where no shutdown can be recorded any more it restarts at once. -/
def State.orderly (s : State) : State :=
  let j := s.journal
  if j.usable = false ∨ j.full then s.restart 2
  else if j.closing then
    if s.flag .jrnStat_SHUTDOWN_DONE then s.restart 2
    else { s with journal := { j with queue := j.queue.map fun r => if r.type = 0x05 then { r with done := 4 } else r } }
  else s.shutdown 4

/-- Whether an FW_UPDATE is under way. -/
def State.updating (s : State) : Bool :=
  match s.host.mgmt with
  | some m => decide (m.code = 0x44) && decide (m.stage ≠ 0)
  | none => false

/-- Whether SYS_RESTART is served: step 4 has ended, and no thermal trip holds the device (R381, R424). -/
def State.restarts (s : State) : Bool :=
  s.sclk && !decide (s.boot.phase = .tripped) && decide (5 ≤ s.rd .sysStartStat_STEP)

/-- Who may write SYS_RESTART (Table 19.3). -/
def mayRestart : Requester → Bool
  | .host => false
  | _ => true

/-- SYS_RESTART written with a kind (R436, R438): before the ready report either kind acts as an immediate restart. -/
def State.restartWrite (s : State) (kind : Nat) : State :=
  if s.restarts = false then s
  else if kind = 1 ∧ (s.isReady ∨ s.boot.phase = .fatal) then
    if s.updating then { s with boot := { s.boot with restartWaits := true } } else s.orderly
  else if kind = 1 ∨ kind = 2 then s.restart 3
  else s

/-- ORDERLY_RESTART (R436). -/
def execOrderlyRestart (req : Requester) (s : State) : Out := Out.when (mayRestart req) s (s.restartWrite 1)

/-- IMMEDIATE_RESTART (R436). -/
def execImmediateRestart (req : Requester) (s : State) : Out := Out.when (mayRestart req) s (s.restartWrite 2)

/-- The end of an FW_UPDATE: the command completes, and a restart that waited for it goes on (R436). -/
def State.updateEnd (s : State) (m : MgmtCmd) (status : Nat) : State :=
  let s := s.mgmtDone m status
  if s.boot.restartWaits then ({ s with boot := { s.boot with restartWaits := false } } : State).orderly else s

/-! ### Appends (R413, R415, R420) -/

/-- The stage of a management command that waits for its record in the journal. -/
def waitsRecord : Nat := 9

/-- What follows a record that has been written. -/
def State.followRec (s : State) (done : Nat) : State :=
  match done with
  | 1 => s.shutdownDone
  | 2 => match s.host.mgmt with
    | some m => if m.stage = waitsRecord then s.mgmtDone m 0 else s
    | none => s
  | 4 => s.shutdownDone.restart 2
  | _ => s

/-- R420: the region in use is full: appends stop, and what waited for a record follows. -/
def State.journalFull (s : State) : State :=
  let left := s.journal.queue
  let s := { s with journal := { s.journal with full := true, queue := [] } }
  left.foldl (fun s r => s.followRec r.done) s

/-- JOURNAL_APPEND (R413, R415, R418). -/
def execJournalAppend (programOk : Bool) (s : State) : Out :=
  match s.journal.queue with
  | [] => .next s
  | r :: _ =>
    if s.mayAppend = false then .next s
    else if s.journal.pos + recordSize r.payload.length > regionSize then .next s.journalFull
    else
      let t := s.appendRec r programOk
      let t := if r.type = 0x05 then t else t.compactIfFull
      .next (if programOk then t.followRec r.done else t)

end Sys2Proof.Machine
end

