-- ==== Sys2Proof/Machine/Qp.lean ====
section
/-! DEFINITION. Transport events of queue pairs and the export ports (R212, R224 to R227, R337, R394, R395, R432). -/
namespace Sys2Proof.Machine

/-! ### Queue pairs that fail (R225 to R227) -/

/-- The enabled partner that a queue pair serves (R201). -/
def State.qpPartner (s : State) (n : Nat) : Option Nat :=
  (List.range 256).find? fun p => s.flag .expPartnerCfg_ENABLE p && (s.partnerQps p).any fun x => decide (x.2 = n)

/-- Whether a message is an export engine's page write or marker. -/
def RdmaOut.exported (m : RdmaOut) : Bool := decide (m.tag = 2) || decide (m.tag = 3)

/-- The host read of a LOAD or an FW_UPDATE has failed: PARTNER_LOST, and a LOAD's range is unmapped (Tables 9.9, 14.1). -/
def State.hostReadFails (s : State) : State :=
  match s.host.mgmt with
  | none => s
  | some m =>
    if m.stage ≠ 1 then s
    else if m.code = 0x11 then
      let w := m.param 0
      let ms := ((s.ward w).bind fun x => x.whole (m.param 1) (m.param 2)).getD []
      (s.unmapAll w ms).mgmtDone m cPartnerLost
    else if m.code = 0x44 then s.updateEnd m cPartnerLost
    else s

/-- What an error of a queue pair does to the partner that it served: its unacknowledged writes and markers go on another
pair, or the partner is lost (R225, R227). -/
def State.failOver (s : State) (n cause : Nat) (lost : List RdmaOut) : State :=
  match s.qpPartner n with
  | none => s
  | some p =>
    match s.partnerRts p with
    | [] => if s.partnerActive p then s.losePartner p cause else s
    | q :: _ => lost.foldl (fun s m => s.post q m) s

/-- A queue pair in RTS goes to error (R225, R329, R338). -/
def State.failQp (s : State) (n cause : Nat) : State :=
  match s.qp n with
  | none => s
  | some q =>
    if q.state ≠ .rts then s else
    let s := s.qpError n
    let s := if n = 0 then s.hostReadFails else s
    s.failOver n cause (q.unacked.filter RdmaOut.exported)

/-- Whether a queue pair is in RTS. -/
def State.inRts (s : State) (n : Nat) : Bool := decide ((s.qp n).map (·.state) = some .rts)

/-- Whether a queue pair in RTS has messages on their way that are not acknowledged. -/
def State.unackedOn (s : State) (n : Nat) : Bool := s.inRts n && !(((s.qp n).map (·.onWay)).getD []).isEmpty

/-- One recovered NAK or rejected request of an export queue pair, counted for its partner (Table 8.3). -/
def State.nakCount (s : State) (n : Nat) : State :=
  match s.qpPartner n with
  | some p => s.bump .expPartnerStat_NAK_RETRIES p
  | none => s

/-- PSN_SEQUENCE_ERROR_NAK (Table 8.13): go-back-N. -/
def execPsnSequenceErrorNak (qpn : Nat) (s : State) : Out := Out.when (s.unackedOn qpn) s ((s.nakCount qpn).resend qpn)

/-- RNR_NAK (Table 8.13): the queue pair waits for its RNR timer. -/
def execRnrNak (qpn : Nat) (s : State) : Out :=
  Out.when (s.unackedOn qpn) s ((s.nakCount qpn).modQp qpn fun q => { q with rnrWait := true })

/-- RNR_TIMER_EXPIRY (Tables 8.13, 13.3). -/
def execRnrTimerExpiry (qpn : Nat) (s : State) : Out :=
  Out.when (s.inRts qpn && ((s.qp qpn).map (·.rnrWait)).getD false) s ((s.modQp qpn fun q => { q with rnrWait := false }).resend qpn)

/-- Retransmissions after timeout (Table 13.3). -/
def retryLimit : Nat := 7

/-- Retransmissions that a queue pair has made since the last acknowledgement. -/
def State.retriesOf (s : State) (n : Nat) : Nat := ((s.qp n).map (·.retries)).getD 0

/-- ACK_TIMEOUT (Tables 8.13, 13.3): one retransmission of at most seven. -/
def execAckTimeout (qpn : Nat) (s : State) : Out :=
  Out.when (s.unackedOn qpn && decide (s.retriesOf qpn < retryLimit)) s
    ((s.modQp qpn fun q => { q with retries := q.retries + 1 }).resend qpn)

/-- RETRIES_EXHAUSTED (Table 8.13, R337): the timeout after the seventh retransmission. -/
def execRetriesExhausted (qpn : Nat) (s : State) : Out :=
  Out.when (s.unackedOn qpn && decide (s.retriesOf qpn = retryLimit)) s (s.failQp qpn 2)

/-- The binding of a queue pair's oldest unacknowledged message. -/
def State.oldestBinding (s : State) (n : Nat) : Option Nat :=
  (((s.qp n).map (·.unacked)).getD []).head?.bind fun m => if m.exported then some m.binding else none

/-- REMOTE_ACCESS_ERROR_NAK (Table 8.13): the binding of the write fails with REMOTE_ACCESS, then the queue pair. -/
def execRemoteAccessErrorNak (qpn : Nat) (s : State) : Out :=
  if s.unackedOn qpn = false then .next s else
  let s := match s.oldestBinding qpn with
    | some b => s.failBinding b cRemoteAccess
    | none => s
  .next (s.failQp qpn 3)

/-- REMOTE_OPERATIONAL_ERROR_NAK (Table 8.13). -/
def execRemoteOperationalErrorNak (qpn : Nat) (s : State) : Out := Out.when (s.unackedOn qpn) s (s.failQp qpn 4)

/-! ### The inbox (R212, R213) -/

/-- What the device sends back on a queue pair. -/
def ansAck : Nat := 0
def ansData : Nat := 1
def ansInvalid : Nat := 2
def ansAccess : Nat := 3
def ansCnp : Nat := 4

/-- An answer on a queue pair; a port that does not send holds it (R334). -/
def State.qpAnswer (s : State) (n kind : Nat) (data : List Byte := []) : State :=
  if s.sends (((s.qp n).map (·.port)).getD 0) then { s with host := { s.host with replies := s.host.replies ++ [(n, kind, data)] } }
  else { s with host := { s.host with heldReplies := s.host.heldReplies ++ [(n, kind, data)] } }

/-- A remote-access NAK: RoCEv2 moves the queue pair to error (R328). -/
def State.accessNak (s : State) (n : Nat) : State := (s.qpAnswer n ansAccess).failQp n 3

/-- Whether a queue pair is one of a partner's. -/
def State.ofPartner (s : State) (p n : Nat) : Bool := (s.partnerQps p).any fun x => decide (x.2 = n)

/-- The partner that owns slot `slot` of a port and reaches the device over queue pair n (R212). -/
def State.slotOwner (s : State) (n port slot : Nat) : Option Nat :=
  match s.inboxPartner port slot with
  | some p => if s.ofPartner p n then some p else none
  | none => none

/-- GRANT_TAIL written on one of the partner's queue pairs. -/
def State.grantTail (s : State) (p port slot tail : Nat) : State :=
  let s := s.pokeN (inboxAddr port slot) 4 tail
  if s.partnerActive p then s.takeGrants p port slot tail else s

/-- GRANT_TAIL (R213): the write of the count in a slot of the queue pair's port; a pair that is not the owner's gets a
remote-access NAK. -/
def execGrantTail (qpn slot : Nat) (tail : BitVec 32) (s : State) : Out :=
  match s.qp qpn with
  | none => .next s
  | some q =>
    if q.state ≠ .rts ∨ q.port = 0 ∨ s.linkUp q.port = false then .next s else
    match s.slotOwner qpn (q.port - 1) slot with
    | some p => .next ((s.grantTail p (q.port - 1) slot tail.toNat).qpAnswer qpn ansAck)
    | none => .next (s.accessNak qpn)

/-! ### Ports (R394, R395, R432) -/

/-- Whether a unit number names an export port. -/
def isExport (unit : Nat) : Bool := decide (1 ≤ unit) && decide (unit ≤ 4)

/-- Link state of an Ethernet port (Table 13.11). -/
def State.link (s : State) (unit : Nat) : Nat := s.rd .hostPortStat_LINK unit

/-- R394: an export port retires: LINK 3, every queue pair of it in error, its partners acted on with CAUSE 6. -/
def State.retireExport (s : State) (unit why : Nat) : State :=
  let s := (s.wr .hostPortStat_LINK unit 3).event 0x08 unit 3 0xFFFF 0x21 why
  ((s.host.qps.filter fun q => decide (q.2.port = unit)).map (·.1)).foldl (fun s n => s.failQp n 6) s

/-- R395: the host port meets a condition of R394. -/
def State.hostPoor (s : State) (why : Nat) : State := s.event 0x08 0 2 0xFFFF 0x23 why

/-- A link-down of an Ethernet port: counted, logged, the port trains again and no pause holds it any more; whether it is the
fourth within 10 s. -/
def State.linkDown (s : State) (unit : Nat) : State × Bool :=
  let t := s.raw
  let downs := t :: (Smap.get [] s.host.downs unit).filter fun x => decide (t < x + 10000000000)
  let s := (s.bump .hostPortStat_LINK_DOWNS unit).wr .hostPortStat_LINK unit 1
  let s := { s with host := { s.host with downs := Smap.put [] s.host.downs unit downs, paused := Smap.put 0 s.host.paused unit 0 } }
  (s.event 0x08 unit 1 0xFFFF 0x20 (s.rd .hostPortStat_LINK_DOWNS unit), decide (4 ≤ downs.length))

/-- EXPORT_LINK_DOWN (R394). -/
def execExportLinkDown (port : Nat) (s : State) : Out :=
  if isExport port = false ∨ s.linkUp port = false then .next s else
  let (s, fourth) := s.linkDown port
  .next (if fourth then s.retireExport port 1 else s)

/-- Whether a port trains again after a link-down. -/
def State.retrains (s : State) (unit : Nat) : Bool := s.fclk && decide (s.link unit = 1) && !(Smap.get [] s.host.downs unit).isEmpty

/-- EXPORT_RETRAIN_TIMEOUT (R394): 2 s without training after a link-down. The host port only writes its entry (R395). -/
def execExportRetrainTimeout (port : Nat) (s : State) : Out :=
  if s.retrains port = false then .next s
  else if isExport port then .next (s.retireExport port 2)
  else Out.when (decide (port = 0)) s (s.hostPoor 2)

/-- Most uncorrectable codewords of a good window (R394). -/
def fecLimit : Nat := 256

/-- EXPORT_FEC_WINDOW_END (R394): the tenth bad window in a row retires an export port; the host port only writes its
entry (R395). -/
def execExportFecWindowEnd (port uncorrectable : Nat) (s : State) : Out :=
  if port > 4 ∨ s.fclk = false ∨ s.link port = 0 ∨ s.link port = 3 then .next s else
  let n := if uncorrectable > fecLimit then Smap.get 0 s.host.badWindows port + 1 else 0
  let s := { s with host := { s.host with badWindows := Smap.put 0 s.host.badWindows port (if n ≥ 10 then 0 else n) } }
  .next (if n < 10 then s else if port = 0 then s.hostPoor 3 else s.retireExport port 3)

/-- ENABLE of an export port (Table 8.1): set, a port that is down starts to train (R432); clear, it stops. -/
def State.enablePort (s : State) (unit : Nat) (on : Bool) : State :=
  let s := s.wr .expPortCfg_ENABLE (unit - 1) (if on then 1 else 0)
  if s.link unit = 3 then s
  else if on then (if s.link unit = 0 then s.wr .hostPortStat_LINK unit 1 else s)
  else { s with host := { s.host with downs := Smap.put [] s.host.downs unit [] } }.wr .hostPortStat_LINK unit 0

/-- EXPORT_PORT_ENABLE (R432). -/
def execExportPortEnable (port : Nat) (s : State) : Out :=
  Out.when (s.managed && isExport port && !s.flag .expPortCfg_ENABLE (port - 1)) s (s.enablePort port true)

/-- EXPORT_LINK_UP (R394, R432): training has ended; more than 2 s after a link-down it comes too late. -/
def execExportLinkUp (port : Nat) (s : State) : Out :=
  if isExport port = false ∨ s.fclk = false ∨ s.link port ≠ 1 ∨ s.flag .expPortCfg_ENABLE (port - 1) = false then .next s
  else match (Smap.get [] s.host.downs port).head? with
    | some x => .next (if s.raw < x + 2000000000 then (s.wr .hostPortStat_LINK port 2).flushPort port else s.retireExport port 2)
    | none => .next ((s.wr .hostPortStat_LINK port 2).flushPort port)

end Sys2Proof.Machine
end

