-- ==== Sys2Proof/Machine/Csr.lean ====
section
/-! DEFINITION. The CSR bus (R20, R21, R439 to R449): reads and writes of registers by requester, staging of wide registers,
and the registers whose writes act: queue pair 0 (R455), partners (R202), ports, keyways (R203), the journal, restarts. -/
namespace Sys2Proof.Machine

/-- Whether registers are served in full: after step 4 (R424, R450), also where the device has stopped. -/
def State.csrUp (s : State) : Bool :=
  s.sclk && match s.boot.phase with
    | .step n => decide (4 < n)
    | .ready => true
    | .fatal => true
    | .tripped => true
    | .stopped => decide (4 < s.rd .sysStartStat_STEP)
    | _ => false

/-- Whether a requester's accesses are served at all (R424, R450). -/
def State.csrServes (s : State) : Requester → Bool
  | .i3c => s.csrUp
  | .host => s.csrUp && s.hostServes
  | .signed => s.csrUp && s.isReady

/-! ### Reads -/

/-- The LOG_FILTER of a requester's path (Table 16.8): 0 the host's, 1 the I3C target's. -/
def filterOf : Requester → Nat
  | .i3c => 1
  | _ => 0

/-- Bytes of a stored trouble-log entry as a requester sees them (R404). -/
def State.logView (s : State) (req : Requester) (e : List Byte) : List Byte :=
  let f := filterOf req
  let ward := ofBytes (sliceOf e 20 2)
  if s.flag .logFilter_EN f && decide (ward ≠ 0xFFFF) && decide (ward ≠ s.rd .logFilter_FILTER_WARD f) then
    List.replicate 12 0 ++ sliceOf e 12 4 ++ List.replicate 16 0
  else e

/-- The fields of a register put together; WO fields read 0 (Table 0.4). -/
def State.regFields (s : State) (r : Reg) (u : Nat) : Nat :=
  (r.fields.map fun f => if f.info.acc = .wo then 0 else s.rd f u * 2 ^ f.info.lo).foldl (· + ·) 0

/-- A whole register as a requester reads it. -/
def State.regValue (s : State) (req : Requester) (r : Reg) (u : Nat) : Nat :=
  match r with
  | .logEntry => ofBytes (s.logView req (Smap.get (List.replicate 32 0) s.log.ring u))
  | .auvImage => s.img 0 3392
  | .sysTime => s.time
  | .logFilter => s.regFields r (filterOf req)
  | r => s.regFields r u

/-- One word read (R439, R440, R449): 0 where nothing is assigned or the die is out of reach. -/
def State.csrRead (s : State) (req : Requester) (off : Nat) : Nat :=
  match Reg.atCsr off with
  | none => 0
  | some (r, u, w) =>
    if s.csrReach (off / 2 ^ 24) = false then 0
    else if r = .auvImage then s.img (8 * w) 8
    else s.regValue req r u / 2 ^ (64 * w) % 2 ^ 64

/-- n words read (R444). -/
def State.csrReadWords (s : State) (req : Requester) (off n : Nat) : List Byte :=
  (List.range n).flatMap fun i => bytesOf 8 (s.csrRead req (off + 8 * i))

/-! ### Rights and values (Table 19.3, R446) -/

/-- Table 19.3: whether a requester may write a field. -/
def mayWrite (req : Requester) (f : Fld) : Bool :=
  match f.info.reg with
  | .sysExpertCtl => decide (f ≠ .sysExpertCtl_EXPERT_UNLOCK) || decide (req = .signed)
  | .hngTorusCfg => decide (req = .signed)
  | .wrdPolicy => decide (req = .signed)
  | .memLend => false
  | .hostQp0Cfg => decide (req = .i3c)
  | .sysRestart => decide (req ≠ .host)
  | _ => true

/-- The fields of a register that some requester may write. -/
def Reg.writable (r : Reg) : List Fld := r.fields.filter fun f => decide (f.info.acc ≠ .ro)

/-- Whether Table 19.3 denies a requester every writable field of a register (R452). -/
def Reg.denied (r : Reg) (req : Requester) : Bool :=
  decide (r = .memLend) || (!r.writable.isEmpty && r.writable.all fun f => !mayWrite req f)

/-- R446, R62: whether RWX fields of a unit of a register may be written, by the locks as they stood when the cycle began. -/
def State.rwxOpen (s : State) (r : Reg) (u : Nat) : Bool :=
  match r with
  | .wrdPolicy | .wrdEnergy | .wrdExcCount | .kvpWardCfg | .kvpWardStat =>
    decide (s.was .sysExpertCtl_EXPERT_UNLOCK ≠ 0) || decide (s.was .wrdPolicy_EXPERT_UNLOCK u ≠ 0)
  | _ => decide (s.was .sysExpertCtl_EXPERT_UNLOCK ≠ 0)

/-- v held between two bounds. -/
def clampTo (lo hi v : Nat) : Nat := max lo (min hi v)

/-- What a field takes when v is written to it: clamped, or none where its table has the write ignored. -/
def fieldTakes (f : Fld) (v : Nat) : Option Nat :=
  let only (b : Bool) : Option Nat := if b then some v else none
  match f with
  | .schPlan_PLAN_POINT => some (clampTo 0x20 0xE0 v)
  | .kvpWardCfg_DROP_CLASS => only (decide (v < 2))
  | .hbmScrubCfg_PERIOD_H => only (decide (1 ≤ v) && decide (v ≤ 24))
  | .hngRetireCfg_LANE_LIMIT | .hngRetireCfg_RETRY_LIMIT | .hngDrrCfg_W_REDUCE | .hngDrrCfg_W_RESP | .hngDrrCfg_W_REQ
  | .hostEcnCfg_PERIOD_US | .hostEcnCfg_MIN_GBPS | .hostEcnCfg_GSHIFT | .pwrDroopCfg_HOLD_CYCLES
  | .pwrDroopCfg_THRESH_MV => only (decide (v ≠ 0))
  | .clkClusterCfg_FMAX => only (decide (v ≤ 28))
  | .pwrCap_WATTS => some (clampTo 500 1600 v)
  | .clkStepCfg_LENGTH_US => some (clampTo 50 10000 v)
  | .jrnCfg_PERIOD_MIN => only (decide (1 ≤ v) && decide (v ≤ 60))
  | .pwrThermCfg_TARGET_C => some (clampTo 70 100 v)
  | _ => some v

/-- A write to a register: the value and the mask of the bits that take it, over all its words. -/
structure RegWrite where
  v : Nat := 0
  m : Nat := 0
deriving DecidableEq, Repr

/-- Bits of a field, of a value that spans a register. -/
def Fld.of (f : Fld) (x : Nat) : Nat := bits x f.info.hi f.info.lo

/-- Whether a write touches a field. -/
def RegWrite.touches (x : RegWrite) (f : Fld) : Bool := decide (f.of x.m ≠ 0)

/-- What a field of unit u would hold after a write: W1C clears, the others take the masked bits (Table 0.4, R445). -/
def State.candidate (s : State) (x : RegWrite) (f : Fld) (u : Nat) : Nat :=
  let one := f.of (x.v &&& x.m)
  if f.info.acc = .w1c then s.rd f u &&& ((2 ^ f.width - 1) ^^^ one)
  else (s.rd f u &&& ((2 ^ f.width - 1) ^^^ f.of x.m)) ||| one

/-- One field of a write: the state, and whether an expert write was ignored (R9). `openX` is the lock as it stood before
the write. -/
def State.writeField (s : State) (req : Requester) (openX : Bool) (x : RegWrite) (u : Nat) (f : Fld) : State × Bool :=
  if f.info.acc = .ro ∨ f.info.acc = .wo ∨ x.touches f = false ∨ mayWrite req f = false then (s, false) else
  let c := s.candidate x f u
  if f.info.acc = .rwx ∧ openX = false then (s, decide (c ≠ s.rd f u)) else
  match fieldTakes f c with
  | some v => ((if f.info.acc = .w1c then s else s.keep f u).wr f u v, false)
  | none => (s, false)

/-- Several fields of one write. -/
def State.writeFields (s : State) (req : Requester) (openX : Bool) (x : RegWrite) (u : Nat) (fs : List Fld) : State × Bool :=
  fs.foldl (fun (a : State × Bool) f =>
    let (t, ign) := a.1.writeField req openX x u f
    (t, a.2 || ign)) (s, false)

/-! ### Queue pair 0 (R455) -/

/-- Whether the fields of HOST_QP0_CFG allow a connection. -/
def State.qp0Valid (s : State) : Bool :=
  decide (s.rd .hostQp0Cfg_MTU ≠ 3) && decide (8 ≤ s.rd .hostQp0Cfg_TIMEOUT_EXP) && decide (s.rd .hostQp0Cfg_TIMEOUT_EXP ≤ 20)
    && decide (4 ≤ s.rd .hostQp0Cfg_EC_LOG2) && decide (s.rd .hostQp0Cfg_EC_LOG2 ≤ 16) && decide (s.rd .hostQp0Cfg_CQ_ADDR % 32 = 0)

/-- The holder number of the owner. -/
def ownerHolder : Nat := 0x200

/-- Queue pair 0 as HOST_QP0_CFG describes it. -/
def State.qp0 (s : State) : Qp :=
  { state := .rts, port := 0, holder := ownerHolder, key := s.rd .hostQp0Cfg_KEY, gid := s.rd .hostQp0Cfg_PEER_GID,
    peer := s.rd .hostQp0Cfg_PEER_QPN, sendPsn := s.rd .hostQp0Cfg_SEND_PSN, recvPsn := s.rd .hostQp0Cfg_RECV_PSN,
    mtu := s.rd .hostQp0Cfg_MTU, dscp := s.rd .hostQp0Cfg_DSCP, timeout := s.rd .hostQp0Cfg_TIMEOUT_EXP }

/-- CONNECT: ignored in RTS; valid fields bring queue pair 0 to RTS, others set CFG_ERR. -/
def State.connectQp0 (s : State) : State :=
  if s.rd .hostQp0Cfg_STATE = 1 then s
  else if s.qp0Valid = false then s.wr .hostQp0Cfg_CFG_ERR 0 1
  else
    let q : Gotar := { (s.gotar 0).getD {} with qpn := 0, es := 2048, ec := 2 ^ s.rd .hostQp0Cfg_EC_LOG2,
                                                cqAddr := s.rd .hostQp0Cfg_CQ_ADDR, cqRkey := s.rd .hostQp0Cfg_CQ_RKEY }
    let s := (((s.putQp 0 s.qp0).putGotar 0 q).wr .hostQp0Cfg_CFG_ERR 0 0).wr .hostQp0Cfg_STATE 0 1
    if s.boot.readyNotice then ({ s with boot := { s.boot with readyNotice := false } } : State).readyNotice else s

/-- DROP: queue pair 0 to ERROR with the effects of R338. -/
def State.dropQp0 (s : State) : State := (s.failQp 0 0).wr .hostQp0Cfg_STATE 0 2

/-- A write of HOST_QP0_CFG (R455). -/
def State.writeQp0 (s : State) (req : Requester) (x : RegWrite) : State :=
  if mayWrite req .hostQp0Cfg_CONNECT = false then s else
  let rts := decide (s.rd .hostQp0Cfg_STATE = 1)
  let s := if rts then s else (s.writeFields req true x 0 Reg.hostQp0Cfg.fields).1
  let act := x.v &&& x.m
  let s := if Fld.hostQp0Cfg_CONNECT.of act = 1 then s.connectQp0 else s
  if Fld.hostQp0Cfg_DROP.of act = 1 then s.dropQp0 else s

/-! ### Other registers that act -/

/-- HNG_TORUS_CFG (R256): ignored while a hinge port is up or where a coordinate lies outside; an accepted value is
in force and goes into the journal. -/
def State.writeTorus (s : State) (x : RegWrite) : State :=
  let old := s.regFields .hngTorusCfg 0
  let v := (old &&& ((2 ^ 32 - 1) ^^^ x.m % 2 ^ 32)) ||| ((x.v &&& x.m) % 2 ^ 32)
  let node := bits v 11 0
  let outside := decide (node % 16 > bits v 19 16) || decide (node / 16 % 16 > bits v 23 20) || decide (node / 256 > bits v 27 24)
  let up := (List.range 6).any fun p => decide (s.rd .hngPortStat_STATE p = 2)
  if up || outside then s else
  let s := s.setTorus v
  let kept := s.regFields .hngTorusCfg 0
  let s := { s with journal := { s.journal with torus := some kept } }
  s.journalMust { type := 0x06, payload := bytesOf 4 kept, done := 2 } id

/-- EXP_PARTNER_CFG (R202, R227). -/
def State.writePartner (s : State) (req : Requester) (openX : Bool) (x : RegWrite) (p : Nat) : State × Bool :=
  let want := s.candidate x .expPartnerCfg_ENABLE p
  if s.flag .expPartnerCfg_ENABLE p then (if want = 0 then s.disablePartner p else s, false)
  else
    let (s, ign) := s.writeFields req openX x p (Reg.expPartnerCfg.fields.filter fun f => decide (f ≠ .expPartnerCfg_ENABLE))
    (if want = 1 then s.enablePartner p else s, ign)

/-- Whether an enabled partner uses an export port (R200). -/
def State.portUsed (s : State) (port : Nat) : Bool :=
  (List.range 256).any fun p => s.flag .expPartnerCfg_ENABLE p && (s.rd .expPartnerCfg_PORT_MASK p).testBit port

/-- EXP_PORT_CFG (Table 8.1). -/
def State.writePort (s : State) (x : RegWrite) (port : Nat) : State :=
  let sw := s.candidate x .expPortCfg_SWITCHED port
  let en := s.candidate x .expPortCfg_ENABLE port
  let s := if s.portUsed port then s else s.wr .expPortCfg_SWITCHED port sw
  if en = s.rd .expPortCfg_ENABLE port then s else s.enablePort (port + 1) (decide (en = 1))

/-- PWR_THERM_CFG (Table 15.10): ALERT_C stays within TARGET_C and 104; a level that a sensor's latest
reading has reached raises the alert (R380). -/
def State.writeTherm (s : State) (req : Requester) (x : RegWrite) : State :=
  let s := (s.writeFields req true x 0 [.pwrThermCfg_TARGET_C]).1
  let s := (s.keep .pwrThermCfg_ALERT_C 0).wr .pwrThermCfg_ALERT_C 0 (clampTo (s.rd .pwrThermCfg_TARGET_C) 104 (s.candidate x .pwrThermCfg_ALERT_C 0))
  if s.managed then s.thermAlert (s.rd .pwrThermCfg_ALERT_C) s.power.readings else s

/-- CORE_EXC_RECORD.VALID (R441): cleared now, or once the CCLK of a gated cluster runs. -/
def State.writeExcRecord (s : State) (x : RegWrite) (c : Nat) : State :=
  if Fld.coreExcRecord_VALID.of (x.v &&& x.m) = 0 then s else
  let g := clusterOf c
  let k := s.cluster g
  if k.ward = none then (if c ∈ k.clears then s else s.setCluster g { k with clears := c :: k.clears })
  else s.wr .coreExcRecord_VALID c 0

/-- R272, R453: a device that is its own root and still holds the time that an earlier root gave applies its own offset
from the first write of it on. -/
def State.ownTime (s : State) : State :=
  if s.hinge.following.isNone then { s with hinge := { s.hinge with timeLocked := false } } else s

/-- JRN_CTL (Table 17.10, R415, R416). -/
def State.writeJrn (s : State) (x : RegWrite) : State :=
  let act := x.v &&& x.m
  let s := if Fld.jrnCtl_APPEND.of act = 1 ∧ s.managed then s.history else s
  if Fld.jrnCtl_SHUTDOWN.of act = 1 ∧ s.managed ∧ s.journal.usable ∧ s.journal.closing = false then s.shutdown 1 else s

/-- A write to a register takes effect: the state, and whether an expert write was ignored. -/
def State.commit (s : State) (req : Requester) (r : Reg) (u : Nat) (x : RegWrite) : State × Bool :=
  let openX := s.rwxOpen r u
  match r with
  | .hostQp0Cfg => (s.writeQp0 req x, false)
  | .hngTorusCfg => (if req = .signed then s.writeTorus x else s, false)
  | .expPartnerCfg => s.writePartner req openX x u
  | .expPortCfg => (s.writePort x u, false)
  | .expKeywayLoad => (s.loadKeyway ((x.v &&& x.m) % 2 ^ 64) ((x.v &&& x.m) / 2 ^ 64), false)
  | .pwrThermCfg => (s.writeTherm req x, false)
  | .coreExcRecord => (s.writeExcRecord x u, false)
  | .jrnCtl => (s.writeJrn x, false)
  | .sysRestart => (if mayRestart req then s.restartWrite (Fld.sysRestart_KIND.of (x.v &&& x.m)) else s, false)
  | .logFilter => s.writeFields req openX x (filterOf req) r.fields
  | .sysTimeOffset => s.keepOffset.ownTime.writeFields req openX x u r.fields
  | r => s.writeFields req openX x u r.fields

/-! ### Staging (R443) -/

/-- A requester's staging. -/
def State.staging (s : State) (req : Requester) : Option Staging := (s.side.staged.find? fun x => decide (x.1 = req)).map (·.2)

/-- The state with a requester's staging replaced. -/
def State.setStaging (s : State) (req : Requester) (x : Option Staging) : State :=
  let rest := s.side.staged.filter fun y => decide (y.1 ≠ req)
  { s with side := { s.side with staged := rest ++ (x.map fun z => (req, z)).toList } }

/-- A lower word of a wide register staged. -/
def State.stage (s : State) (req : Requester) (base w v m : Nat) : State :=
  let words := match s.staging req with
    | some z => if z.offset = base then z.words.filter (fun y => decide (y.1 ≠ w)) else []
    | none => []
  s.setStaging req (some { offset := base, words := words ++ [(w, v, m)] })

/-- The staged words of a register with its highest word. -/
def State.gather (s : State) (req : Requester) (base w v m : Nat) : RegWrite :=
  let staged := match s.staging req with
    | some z => if z.offset = base then z.words else []
    | none => []
  (staged ++ [(w, v, m)]).foldl (fun (x : RegWrite) y =>
    { v := x.v + y.2.1 % 2 ^ 64 * 2 ^ (64 * y.1), m := x.m + y.2.2 % 2 ^ 64 * 2 ^ (64 * y.1) }) {}

/-- The staging of a register that has been committed is gone. -/
def State.unstage (s : State) (req : Requester) (base : Nat) : State :=
  match s.staging req with
  | some z => if z.offset = base then s.setStaging req none else s
  | none => s

/-- Whether a lower word of a register is not even staged: read-only arrays, a register whose fields the requester may not
write, and HOST_QP0_CFG in RTS (R455). -/
def State.noStage (s : State) (req : Requester) (r : Reg) : Bool :=
  decide (r = .logEntry) || decide (r = .auvImage) || r.denied req
    || (decide (r = .hostQp0Cfg) && decide (s.rd .hostQp0Cfg_STATE = 1))

/-- One CSR bus write of a word, of which the bits of m take those of v (R439, R443, R445, R446, R449): the state, and
whether an expert write was ignored, which sets IGNORED_SEEN (Table 2.9). -/
def State.csrWrite (s : State) (req : Requester) (off v m : Nat) : State × Bool :=
  match Reg.atCsr off with
  | none => (s, false)
  | some (r, u, w) =>
    if s.csrReach (off / 2 ^ 24) = false then (s, false)
    else if w + 1 < r.loc.words then (if s.noStage req r then s else s.stage req (off / 8 * 8 - 8 * w) w v m, false)
    else
      let base := off / 8 * 8 - 8 * w
      let x := s.gather req base w v m
      let (s, ign) := (s.unstage req base).commit req r u x
      (if ign then s.wr .sysExpertCtl_IGNORED_SEEN 0 1 else s, ign)

/-- A whole word written. -/
def State.csrPut (s : State) (req : Requester) (off v : Nat) : State := (s.csrWrite req off v (2 ^ 64 - 1)).1

/-- Offset of a register's unit in CSR space, on the die that holds it. -/
def Reg.offset (r : Reg) (die k : Nat) : Nat := die * 2 ^ 24 + r.loc.base + k * r.loc.stride

/-! ### Commands -/

/-- PWR_CAP_WRITE (R368). -/
def execPwrCapWrite (req : Requester) (v : Word) (s : State) : Out :=
  Out.when (s.csrServes req) s (s.csrPut req (Reg.pwrCap.offset 0 0) v.toNat)

/-- SYS_TIME_OFFSET_WRITE (R453). -/
def execSysTimeOffsetWrite (req : Requester) (v : Word) (s : State) : Out :=
  Out.when (s.csrServes req) s (s.csrPut req (Reg.sysTimeOffset.offset 0 0) v.toNat)

/-- KEYWAY_LOAD (R203): word 1 of EXP_KEYWAY_LOAD written, which commits. -/
def execKeywayLoad (req : Requester) (v : Word) (s : State) : Out :=
  Out.when (s.csrServes req) s (s.csrPut req (Reg.expKeywayLoad.offset 1 0 + 8) v.toNat)

/-- Whether a word written to EXP_PARTNER_CFG has ENABLE set. -/
def enables (v : Word) : Bool := v.toNat.testBit 63

/-- PARTNER_ENABLE (R202): ENABLE written from 0 to 1. -/
def execPartnerEnable (req : Requester) (p : Nat) (v : Word) (s : State) : Out :=
  Out.when (s.csrServes req && decide (p < 256) && enables v && !s.flag .expPartnerCfg_ENABLE p) s
    (s.csrPut req (Reg.expPartnerCfg.offset 1 p) v.toNat)

/-- PARTNER_DISABLE (R227): ENABLE written from 1 to 0. -/
def execPartnerDisable (req : Requester) (p : Nat) (v : Word) (s : State) : Out :=
  Out.when (s.csrServes req && decide (p < 256) && !enables v && s.flag .expPartnerCfg_ENABLE p) s
    (s.csrPut req (Reg.expPartnerCfg.offset 1 p) v.toNat)

/-- CONNECT (R455): word 7 of HOST_QP0_CFG written by the I3C target with CONNECT set. -/
def execConnect (v : Word) (s : State) : Out :=
  Out.when (s.csrUp && v.toNat.testBit 0) s (s.csrPut .i3c (Reg.hostQp0Cfg.offset 0 0 + 56) v.toNat)

/-- DROP (R455): word 7 of HOST_QP0_CFG written by the I3C target with DROP set. -/
def execDrop (v : Word) (s : State) : Out :=
  Out.when (s.csrUp && v.toNat.testBit 1) s (s.csrPut .i3c (Reg.hostQp0Cfg.offset 0 0 + 56) v.toNat)

/-- REGISTER_WRITE (R445): one word written by a requester. -/
def execRegisterWrite (req : Requester) (offset : Nat) (v : Word) (s : State) : Out :=
  Out.when (s.csrServes req && decide (offset % 8 = 0) && decide (offset < 2 ^ 28)) s (s.csrPut req offset v.toNat)

end Sys2Proof.Machine
end

