-- ==== Sys2Proof/Machine/Mgmt.lean ====
section
/-! DEFINITION. The management commands of Tables 9.9, 13.9 and 14.1, apart from those of wards: queue pairs and queues
(R329, R330, R338), memory (R239 to R243, R251 to R254), registers (R445), addresses, the owner (R358), firmware (R356) and
quotes (R359). -/
namespace Sys2Proof.Machine

/-- The management command in hand at another stage. -/
def State.mgmtStage (s : State) (m : MgmtCmd) (n : Nat) : State :=
  { s with host := { s.host with mgmt := some { m with stage := n } } }

/-- The command with a code, where it has not begun. -/
def State.mgmtNew (s : State) (code : Nat) : Option MgmtCmd :=
  (s.mgmtIs code).bind fun m => if m.stage = 0 then some m else none

/-- Whether a ward exists and takes commands (R344). -/
def State.wardOk (s : State) (w : Nat) : Bool := decide (w < 512) && s.wardActive w && !s.deleting w

/-! ### Queue pairs and queues -/

/-- The acknowledgement timeout exponent of the basic level (Table 13.3). -/
def basicTimeout : Nat := 10

/-- The queue pair that QP_CREATE describes, with its timeout exponent (Table 13.9). -/
def MgmtCmd.qp (m : MgmtCmd) (timeout : Nat) : Qp :=
  { state := .rts, port := m.param 1, holder := m.param 2, key := m.param 3, gid := m.param 4 + m.param 5 * 2 ^ 64, peer := m.param 6,
    sendPsn := m.param 7, recvPsn := m.param 8, mtu := m.param 9, dscp := m.param 10, timeout := timeout }

/-- The code with which QP_CREATE is refused (R328, R329, R338, R340). -/
def State.qpCode (s : State) (m : MgmtCmd) : Nat :=
  let holder := m.param 2
  let quota := s.rd .wrdPolicy_QP_QUOTA holder
  let old := s.qp (m.param 0)
  let again := match old with | some q => decide (q.holder = holder) && decide (q.state = .error) | none => false
  firstCode [
    failIf (decide (m.param 0 = 0) || decide (m.param 0 ≥ 16384) || decide (m.param 1 > 4) || decide (m.param 3 ≥ 2 ^ 28)
      || decide (m.param 6 ≥ 2 ^ 24) || decide (m.param 7 ≥ 2 ^ 24) || decide (m.param 8 ≥ 2 ^ 24) || decide (m.param 9 > 2)
      || decide (m.param 10 ≥ 64) || decide (m.param 11 < 8) || decide (m.param 11 > 20)
      || !(decide (holder = ownerHolder) || s.wardOk holder) || (old.isSome && !again)) cDescriptor,
    failIf (old.isNone && decide (holder ≠ ownerHolder) && decide (quota ≠ 0)
      && decide ((s.host.qps.filter fun q => decide (q.2.holder = holder)).length ≥ quota)) cCapacity]

/-- QP_CREATE (R329): a new queue pair in RTS, or one in error reconnected; the completions held for it follow (R338). -/
def execQpCreate (s : State) : Out :=
  match s.mgmtNew 0x01 with
  | none => .next s
  | some m =>
    let code := s.qpCode m
    if code ≠ 0 then .next (s.mgmtDone m code) else
    let holder := m.param 2
    let locked := !(if holder = ownerHolder then s.unlocked else s.unlockedFor holder)
    let ignored := locked && decide (m.param 11 ≠ basicTimeout)
    let (s, m) := (s.putQp (m.param 0) (m.qp (if ignored then basicTimeout else m.param 11))).ignoredCmd m ignored
    .next (s.mgmtDone m 0)

/-- QP_DESTROY (R338). Queue pair 0 belongs to HOST_QP0_CFG. A partner left without a queue pair is lost; no rule gives its
CAUSE: a free value (log entry 2). -/
def execQpDestroy (s : State) : Out :=
  match s.mgmtNew 0x02 with
  | none => .next s
  | some m =>
    let n := m.param 0
    if n = 0 ∨ (s.qp n).isNone then .next (s.mgmtDone m cDescriptor) else
    let partner := s.qpPartner n
    let lost := (((s.qp n).map (·.unacked)).getD []).filter RdmaOut.exported
    let s := s.destroyQp n
    let s := match partner with
      | none => s
      | some p => match s.partnerRts p with
        | [] => if s.partnerActive p then (let (s, w) := s.free; s.losePartner p (w.toNat % 16)) else s
        | q :: _ => lost.foldl (fun s x => s.post q x) s
    .next (s.mgmtDone m 0)

/-- Whether a number is a power of two from 16 to 65,536. -/
def ringCount (n : Nat) : Bool := (List.range 13).any fun i => decide (n = 2 ^ (i + 4))

/-- R330: whether a submission ring lies wholly in writable pages of its ward. -/
def State.ringMapped (s : State) (w base es : Nat) : Bool :=
  decide (base % 128 = 0) && decide (base + es * 128 ≤ hbmBase) && decide (s.rangeCode w (s.node * 2 ^ 52 + base) (es * 128) true = 0)

/-- R330: the home die: that of the stack which holds entry 0; a free value where it lies in a borrowed window. -/
def State.homeDie (s : State) (w base : Nat) : State × Nat :=
  match s.locate w (s.node * 2 ^ 52 + base) true with
  | (0, .phys a) => (s, stackOf (a - hbmBase))
  | _ => let (s, x) := s.free; (s, x.toNat % 4)

/-- QUEUE_CREATE (R330). -/
def execQueueCreate (s : State) : Out :=
  match s.mgmtNew 0x03 with
  | none => .next s
  | some m =>
    let n := m.param 0
    match s.qp n with
    | none => .next (s.mgmtDone m cDescriptor)
    | some q =>
      if n = 0 ∨ q.port ≠ 0 ∨ s.wardOk q.holder = false ∨ (s.gotar n).isSome ∨ ringCount (m.param 2) = false ∨ ringCount (m.param 5) = false
          ∨ s.ringMapped q.holder (m.param 1) (m.param 2) = false then .next (s.mgmtDone m cDescriptor)
      else
        let (s, die) := s.homeDie q.holder (m.param 1)
        let g : Gotar := { qpn := n, ward := q.holder, sqBase := m.param 1, es := m.param 2, cqAddr := m.param 3,
                           cqRkey := m.param 4 % 2 ^ 32, ec := m.param 5, die := die }
        .next ((s.putGotar n g).mgmtDone m 0)

/-- QUEUE_DESTROY (R338). -/
def execQueueDestroy (s : State) : Out :=
  match s.mgmtNew 0x04 with
  | none => .next s
  | some m =>
    let n := m.param 0
    if n = 0 ∨ (s.gotar n).isNone then .next (s.mgmtDone m cDescriptor)
    else .next ((s.destroyQueue n).mgmtDone m 0)

/-! ### Memory (Table 9.9) -/

/-- MAP (R242). Expert placement counts as basic while locked (R9). -/
def execMap (s : State) : Out :=
  match s.mgmtNew 0x10 with
  | none => .next s
  | some m =>
    let w := m.param 0
    if s.wardOk w = false then .next (s.mgmtDone m cDescriptor) else
    let ignored := decide (m.param 5 ≠ 0) && !s.unlockedFor w
    match s.mapRange w (m.param 1) (m.param 2) (m.param 3) (m.param 4) (Placement.of (if ignored then 0 else m.param 5)) with
    | .error f => .next (s.mgmtDone m f.code f.short)
    | .ok s =>
      let (s, m) := s.ignoredCmd m ignored
      .next (s.mgmtDone m 0)

/-- A READ of host memory for the command in hand, over queue pair 0 (R327); without a connection it fails. -/
def State.hostRead (s : State) (m : MgmtCmd) (addr len rkey : Nat) : State :=
  let s := s.mgmtStage m 1
  if s.inRts 0 then s.post 0 { kind := 2, addr := addr, rkey := rkey % 2 ^ 32, len := len, tag := 4 } else s.hostReadFails

/-- LOAD (R241, Table 9.9): mapped as by MAP, then filled by a READ of host memory. -/
def execLoad (s : State) : Out :=
  match s.mgmtNew 0x11 with
  | none => .next s
  | some m =>
    let w := m.param 0
    if s.wardOk w = false then .next (s.mgmtDone m cDescriptor) else
    match s.mapRange w (m.param 1) (m.param 2) (m.param 3) (m.param 4) {} with
    | .error f => .next (s.mgmtDone m f.code f.short)
    | .ok s => .next (s.hostRead m (m.param 5) (m.param 2) (m.param 6))

/-- The mappings that an UNMAP or PROTECT names, or none where it fails (Table 9.9). -/
def State.rangeMaps (s : State) (w va size : Nat) : Option (List Mapping) :=
  if s.wardOk w then (s.ward w).bind fun x => x.whole va size else none

/-- A command past its cutover waits for earlier accesses; the next entry is looked at (R241, R243). -/
def State.cutOver (s : State) (c : Cutover) (m : MgmtCmd) : State :=
  State.nextMgmt 2048 { s with host := { s.host with mgmt := none, cutovers := s.host.cutovers ++ [(c, m)] } }

/-- UNMAP (R243): from the cutover on nothing finds the mappings; their frames are freed later. -/
def execUnmap (s : State) : Out :=
  match s.mgmtNew 0x12 with
  | none => .next s
  | some m =>
    let w := m.param 0
    match s.rangeMaps w (m.param 1) (m.param 2) with
    | none => .next (s.mgmtDone m cDescriptor)
    | some ms =>
      .next ((s.modWard w fun x => { x with maps := x.maps.filter fun y => !decide (y ∈ ms) }).cutOver { ward := w, maps := ms } m)

/-- PROTECT (R243): permissions changed at the cutover. -/
def execProtect (s : State) : Out :=
  match s.mgmtNew 0x13 with
  | none => .next s
  | some m =>
    let w := m.param 0
    let perm := m.param 3
    match s.rangeMaps w (m.param 1) (m.param 2) with
    | none => .next (s.mgmtDone m cDescriptor)
    | some ms =>
      let set (y : Mapping) : Mapping := if y ∈ ms then { y with r := perm.testBit 0, w := perm.testBit 1 } else y
      .next ((s.modWard w fun x => { x with maps := x.maps.map set }).cutOver { ward := w, unmap := false, maps := ms } m)

/-- MAPPING_CUTOVER_DONE (R243): the accesses that translated before the cutover have completed. -/
def execMappingCutoverDone (ward : Nat) (s : State) : Out :=
  match s.host.cutovers.find? fun c => decide (c.1.ward = ward) with
  | none => .next s
  | some (c, m) =>
    if s.rangeBusy c.maps then .next s else
    let s := { s with host := { s.host with cutovers := s.host.cutovers.filter fun x => decide (x.1.ward ≠ ward) } }
    let s := if c.unmap then c.maps.foldl (fun s x => s.releaseMapping ward x) s else s
    .next (s.mgmtDone m 0)

/-! ### Lending windows (R251 to R254) -/

/-- Bytes of a frame. -/
def frameBytes : Nat := 2 ^ 21

/-- LEND (R251): size in bytes, whole frames. -/
def execLend (s : State) : Out :=
  match s.mgmtNew 0x14 with
  | none => .next s
  | some m =>
    let win := m.param 0
    let n := m.param 1 / frameBytes
    if win ≥ 8 ∨ s.flag .memLend_ENABLE win ∨ m.param 1 % frameBytes ≠ 0 ∨ n = 0 ∨ n > 32767 ∨ m.param 2 ≥ 4096 ∨ m.param 3 ≥ 512 then
      .next (s.mgmtDone m cDescriptor)
    else match s.placePages (.lend win) 1 n {} with
      | .error short => .next (s.mgmtDone m cCapacity short)
      | .ok (s, _) =>
        let s := (s.wr .memLend_ENABLE win 1).wr .memLend_WRITABLE win (if m.param 4 = 0 then 0 else 1)
        let s := ((s.wr .memLend_BORROWER_NODE win (m.param 2)).wr .memLend_BORROWER_WARD win (m.param 3)).wr .memLend_SIZE win n
        .next ((s.wr .memCapacity_LENT_FRAMES 0 (s.rd .memCapacity_LENT_FRAMES + n)).mgmtDone m 0)

/-- UNLEND (R254): requests are served whole, so none that was accepted is left; the frames are free. -/
def execUnlend (s : State) : Out :=
  match s.mgmtNew 0x15 with
  | none => .next s
  | some m =>
    let win := m.param 0
    if win ≥ 8 then .next (s.mgmtDone m cDescriptor)
    else if s.flag .memLend_ENABLE win = false then .next (s.mgmtDone m 0)
    else
      let s := (s.hbm.frames.filter fun f => decide (f.2 = .lend win)).foldl (fun s f => s.freeFrame f.1) s
      let s := s.wr .memCapacity_LENT_FRAMES 0 (s.rd .memCapacity_LENT_FRAMES - s.rd .memLend_SIZE win)
      let s := [Fld.memLend_ENABLE, .memLend_WRITABLE, .memLend_BORROWER_NODE, .memLend_BORROWER_WARD, .memLend_SIZE].foldl
        (fun s f => s.wr f win 0) s
      .next (s.mgmtDone m 0)

/-- Whether a node is a direct torus neighbour (R251). -/
def State.isNeighbour (s : State) (n : Nat) : Bool :=
  s.flag .hngTorusCfg_VALID && (List.range 6).any fun p => decide (s.axisLen (p / 2) > 1) && decide (s.neighbour s.node p = n)

/-- A message to a node, on the port of its route. -/
def State.tell (s : State) (n : Nat) (c : ControlMsg) : State :=
  match s.route { dest := n } none with
  | some p => s.control p c
  | none => s

/-- BORROW (R251): in pages of 2 MiB. The lender is asked; WINDOW_QUERY_ANSWER brings its answer. -/
def execBorrow (s : State) : Out :=
  match s.mgmtNew 0x16 with
  | none => .next s
  | some m =>
    let w := m.param 0
    let va := m.param 1
    let lender := m.param 2
    let size := m.param 4
    let excess := s.overQuota w (size / frameBytes)
    let code := firstCode [
      failIf (!s.wardOk w || !rangeOk va size 21 || ((s.ward w).map fun x => x.meets va size).getD true || decide (m.param 3 ≥ 8)) cDescriptor,
      failIf (!s.isNeighbour lender || !s.reachable lender) cUnreachable,
      failIf (decide (excess ≠ 0)) cCapacity]
    if code ≠ 0 then .next (s.mgmtDone m code (if code = cCapacity then excess else 0))
    else .next ((s.mgmtStage m 1).tell lender (.windowQuery (m.param 3) w size ((m.param 5).testBit 1)))

/-- WINDOW_QUERY (R251): the lender's answer. -/
def execWindowQuery (src window ward size : Nat) (writable : Bool) (s : State) : Out :=
  let ok := decide (window < 8) && s.windowLets window src ward writable && decide (size ≤ s.rd .memLend_SIZE window * frameBytes)
  Out.when s.isReady s (s.tell src (.windowAnswer src window ok))

/-- WINDOW_QUERY_ANSWER (R251): the window mapped, or UNMAPPED. -/
def execWindowQueryAnswer (lender window : Nat) (ok : Bool) (s : State) : Out :=
  match s.mgmtIs 0x16 with
  | none => .next s
  | some m =>
    if m.stage ≠ 1 ∨ m.param 2 ≠ lender ∨ m.param 3 ≠ window then .next s
    else if ok = false then .next (s.mgmtDone m cUnmapped)
    else
      let perm := m.param 5
      let page (i : Nat) : Mapping :=
        { va := m.param 1 + i * frameBytes, log := 21, r := perm.testBit 0, w := perm.testBit 1,
          target := .lent lender window (i * frameBytes) }
      .next ((s.modWard (m.param 0) fun x => { x with maps := x.maps ++ (List.range (m.param 4 / frameBytes)).map page }).mgmtDone m 0)

/-! ### Registers and addresses -/

/-- Whether a CSR_WRITE has queued its TORUS record, for which it waits (R256, R415). -/
def torusWaits (off : Nat) (s t : State) : Bool :=
  decide ((Reg.atCsr off).map (·.1) = some .hngTorusCfg) && decide (t.journal.queue.length > s.journal.queue.length)

/-- CSR_WRITE (R445): one masked word, its address the local address of a register. -/
def execCsrWrite (s : State) : Out :=
  match s.mgmtNew 0x20 with
  | none => .next s
  | some m =>
    match region (m.param 0) with
    | .csr off =>
      if off % 8 ≠ 0 then .next (s.mgmtDone m cDescriptor) else
      let (t, ign) := s.csrWrite .signed off (m.param 1) (m.param 2)
      let m := if ign then { m with ignored := true } else m
      if t.isReady = false then .next t
      else if torusWaits off s t then .next (t.mgmtStage m waitsRecord)
      else .next (t.mgmtDone m 0)
    | _ => .next (s.mgmtDone m cDescriptor)

/-- NET_CFG (R326, Table 13.9). -/
def execNetCfg (s : State) : Out :=
  match s.mgmtNew 0x30 with
  | none => .next s
  | some m =>
    if m.param 0 > 4 ∨ m.param 1 ≥ 2 ^ 48 ∨ m.param 2 ≥ 2 ^ 32 then .next (s.mgmtDone m cDescriptor) else
    let a : NetAddr := { mac := m.param 1, ip4 := m.param 2, ip6 := m.param 3 + m.param 4 * 2 ^ 64 }
    .next (({ s with host := { s.host with net := s.host.net.set (m.param 0) a } } : State).mgmtDone m 0)

/-! ### The owner (R358) -/

/-- The owner key in a command's parameters. -/
def MgmtCmd.key (m : MgmtCmd) : List Byte := (bytesIn m.params).take 132

/-- OWNER_SET (R358): a new key, in force from the next entry on; the command completes once its record is written. -/
def execOwnerSet (s : State) : Out :=
  match s.mgmtNew 0x43 with
  | none => .next s
  | some m =>
    if Config.validPoint m.key = false then .next (s.mgmtDone m cDescriptor) else
    let seq := s.sec.ownerSeq + 1
    let body := m.key ++ bytesOf 8 seq
    let payload := body ++ hmac s.sec.storageKey body
    let s := { s with sec := { s.sec with ownerKey := some m.key, ownerSeq := seq }, journal := { s.journal with owner := some payload } }
    let s := (s.wr .secStat_OWNER 0 1).mgmtStage m waitsRecord
    .next (s.journalMust { type := 0x07, payload := payload, done := 2 } fun s => s.mgmtDone m 0)

/-! ### Firmware (R356, R357) -/

/-- Bytes of a firmware slot. -/
def fwSlotBytes : Nat := 0x800000

/-- The slot that is not running. -/
def State.idleSlot (s : State) : Nat := 1 - s.rd .secStat_BOOT_SLOT

/-- FW_UPDATE: the bundle is read over queue pair 0. -/
def execFwUpdate (s : State) : Out :=
  match s.mgmtNew 0x44 with
  | none => .next s
  | some m =>
    if m.param 1 + 64 > fwSlotBytes then .next (s.mgmtDone m cCapacity)
    else .next (s.hostRead m (m.param 0) (m.param 1) (m.param 2))

/-- A bundle that has been read: verified, and its programming begun in the idle slot, which is erased. -/
def State.takeBundle (s : State) (m : MgmtCmd) (data : List Byte) : State :=
  if (failedStage (splitBundle 5 data)).isSome then s.updateEnd m cDescriptor else
  let s := (s.erase (slotBase s.idleSlot) fwSlotBytes).wr .secStat_UPDATE_PENDING 0 0
  { s with host := { s.host with mgmt := some { m with stage := 2, data := data } } }

/-- SLOT_PROGRAM_DONE (R356): read back, then the slot record with its mark last; a slot that reads back otherwise fails
the command. -/
def execSlotProgramDone (readBackOk : Bool) (s : State) : Out :=
  match s.mgmtIs 0x44 with
  | none => .next s
  | some m =>
    if m.stage ≠ 2 then .next s else
    let base := slotBase s.idleSlot
    let s := s.program (base + 64) m.data
    if readBackOk = false then .next ((s.damageFlash (base + 64) (fwSlotBytes - 64)).updateEnd m cDescriptor) else
    let s := ((s.program base (bytesOf 4 (s.sec.slotSeq + 1) ++ bytesOf 4 64)).program (base + 63) [0xA5]).wr .secStat_UPDATE_PENDING 0 1
    .next (s.updateEnd m 0)

/-! ### Quotes (R359) -/

/-- FLAGS of a quote (Table 14.8). -/
def State.quoteFlags (s : State) (w : Nat) : Nat :=
  let bit (b : Bool) (n : Nat) : Nat := if b then 2 ^ n else 0
  bit s.degraded 0 + bit s.unlocked 1 + bit (decide (w ≠ ownerHolder) && s.flag .wrdPolicy_EXPERT_UNLOCK w) 2 + bit s.sec.ownerKey.isNone 3
    + bit (decide (s.rd .secStat_OWNER = 2)) 4 + bit (s.flag .secStat_UPDATE_PENDING) 5 + bit (s.flag .secStat_FALLBACK) 6

/-- Bytes [575:0] of a quote (Table 14.8). -/
def State.quoteBody (s : State) (w : Nat) (nonce : List Byte) : List Byte :=
  let policy := if w = ownerHolder then List.replicate 64 0 else digest (bytesOf 16 (s.regFields .wrdPolicy w))
  bytesOf 2 1 ++ bytesOf 2 w ++ bytesOf 4 0 ++ bytesOf 8 s.journal.cycles ++ bytesOf 8 s.time ++ fit 64 nonce ++ fit 132 s.sec.identityPub
    ++ (match s.sec.ownerKey with | some k => digest k | none => List.replicate 64 0) ++ fit 64 s.sec.measurement
    ++ fit 80 s.sec.stages.flatten ++ policy ++ bytesOf 24 (s.rd .sysCoreMap_MAP) ++ bytesOf 2 (s.rd .sysStartStat_ENABLED)
    ++ bytesOf 1 (s.rd .sysStartStat_GRADE) ++ bytesOf 1 (s.quoteFlags w) ++ bytesOf 2 s.node ++ bytesOf 1 (s.rd .sysContract_LEVEL_MAX)
    ++ bytesOf 1 (s.rd .sysContract_STEPPING) ++ fit 10 ((s.journal.svn.getD []).flatMap fun v => bytesOf 2 v) ++ List.replicate 42 0

/-- The 768 bytes of a quote: the body, its signature under the identity key, zeros. -/
def State.quoteBytes (s : State) (w : Nat) (nonce : List Byte) : List Byte :=
  let body := s.quoteBody w nonce
  body ++ fit 132 (Config.ecdsaSign s.sec.identityPriv body) ++ List.replicate 60 0

/-- QUOTE (R359): the quote is written over queue pair 0, then the completion; it waits while there is no connection. -/
def execQuote (s : State) : Out :=
  match s.mgmtNew 0x45 with
  | none => .next s
  | some m =>
    let w := m.param 0
    if w ≠ ownerHolder ∧ (w ≥ 512 ∨ s.wardActive w = false) then .next (s.mgmtDone m cDescriptor)
    else if s.inRts 0 = false then .next s
    else
      let bs := s.quoteBytes w (bytesIn ((m.params.drop 1).take 8))
      .next ((s.post 0 { addr := m.param 9, rkey := m.param 10 % 2 ^ 32, data := bs, len := 768, tag := 1 }).mgmtDone m 0)

end Sys2Proof.Machine
end

