-- ==== Sys2Proof/Machine/Host.lean ====
section
/-! DEFINITION. Requests that arrive on queue pairs and their address spaces (R212, R327, R328, R331, R335, R442), host READ
responses, congestion (R334), and the host port's link (R337, R395). -/
namespace Sys2Proof.Machine

/-! ### Inbound requests -/

/-- An inbound request on a queue pair: its rkey, address, length, and its data where it is a WRITE. -/
structure Inbound where
  qpn : Nat := 0
  gid : Nat := 0
  rkey : Nat := 0
  addr : Nat := 0
  len : Nat := 0
  data : Option (List Byte) := none
deriving DecidableEq, Repr

/-- SPACE of an rkey (R328). -/
def Inbound.space (x : Inbound) : Nat := x.rkey / 2 ^ 28 % 16

/-- KEY of an rkey (R328). -/
def Inbound.key (x : Inbound) : Nat := x.rkey % 2 ^ 28

/-- Whether it is a WRITE. -/
def Inbound.isWrite (x : Inbound) : Bool := x.data.isSome

/-- What the device answers to a READ of data that it cannot give (Table 9.2). -/
def ansOperational : Nat := 5

/-- The answer to a request that has been served. -/
def State.served (s : State) (x : Inbound) (bs : List Byte) : State :=
  if x.isWrite then s.qpAnswer x.qpn ansAck else s.qpAnswer x.qpn ansData bs

/-- Host data written into a borrowed window: WRITEs of whole 64-byte units to the lender; bytes of a unit that the host
does not write are free values (log entry 8). -/
def State.hostFarWrite (s : State) (ward : Nat) (l : Loc) (bs : List Byte) : State :=
  match l with
  | .window node win off =>
    let lo := off % 64
    let n := roundUp (lo + bs.length) 64
    let (s, before) := State.freeBytes lo s
    let (s, after) := State.freeBytes (n - lo - bs.length) s
    let l := Loc.window node win (off - lo)
    let (s, node, a) := s.farAddr l
    let data := s.farData ward l (before ++ bs ++ after)
    (s.send { dest := node, op := opWrite, ward := ward, len := n / 64, addr := a, data := data }).1
  | _ => s

/-- Host data written into a ward's space (SPACE 0). -/
def State.wardPut (s : State) (ward a : Nat) (bs : List Byte) : State :=
  (pieces a bs.length).foldl (fun s p =>
    let part := (bs.drop (p.1 - a)).take p.2
    match s.locate ward p.1 true with
    | (0, .phys l) => s.write l part
    | (0, l) => s.hostFarWrite ward l part
    | _ => s) s

/-- SPACE 0: the ward's virtual space, translated under R239 (Table 13.2). -/
def State.inWard (s : State) (x : Inbound) (ward : Nat) : State :=
  let va := s.node * 2 ^ 52 + x.addr
  if x.addr + x.len > hbmBase then s.accessNak x.qpn
  else if s.rangeCode ward va x.len x.isWrite ≠ 0 then s.accessNak x.qpn
  else match x.data with
    | some bs => (s.wardPut ward va bs).served x []
    | none =>
      match s.vread ward va x.len with
      | (s, bs, 0) => s.served x bs
      | (s, _, _) => s.qpAnswer x.qpn ansOperational

/-- A doorbell field that a write covers: acted on where it is written whole, else an error (R331). -/
def State.ringField (s : State) (off : Nat) (bs : List Byte) (f : Nat) (act : State → Nat → State) : State :=
  if off + bs.length ≤ f ∨ f + 4 ≤ off then s
  else if off ≤ f ∧ f + 4 ≤ off + bs.length then act s (ofBytes (sliceOf bs (f - off) 4))
  else s.doorbellErr

/-- SPACE 1: the queue pair's own doorbell window (Table 13.4). -/
def State.inDoorbell (s : State) (x : Inbound) : State :=
  match region x.addr, x.data with
  | .doorbell q off, some bs =>
    if q ≠ x.qpn ∨ off + x.len > 4096 then s.accessNak x.qpn else
    let s := s.ringField off bs 0 fun s v => s.ringTail x.qpn v
    (s.ringField off bs 8 fun s v => s.ringHead x.qpn v).served x []
  | _, _ => s.accessNak x.qpn

/-- SPACE 2: CSR space, word by word in ascending address (R442). -/
def State.inCsr (s : State) (x : Inbound) : State :=
  match region x.addr with
  | .csr off =>
    if off % 8 ≠ 0 ∨ x.len % 8 ≠ 0 ∨ off + x.len > 2 ^ 28 then s.accessNak x.qpn
    else match x.data with
      | some bs => ((List.range (x.len / 8)).foldl (fun (s : State) i => s.csrPut .host (off + 8 * i) (wordAt bs i)) s).served x []
      | none => s.served x (s.csrReadWords .host off (x.len / 8))
  | _ => s.accessNak x.qpn

/-- SPACE 3: the management window (R335). -/
def State.inMgmt (s : State) (x : Inbound) : State :=
  match x.data with
  | some bs =>
    if x.addr + x.len > 0x100000 then s.accessNak x.qpn
    else ({ s with host := { s.host with mgmtRing := pokeMem s.host.mgmtRing x.addr bs } } : State).served x []
  | none => s.accessNak x.qpn

/-- A request on a queue pair of the host port: R328, R455 and Table 13.2. -/
def State.onHostPort (s : State) (x : Inbound) (q : Qp) : State :=
  if x.key ≠ q.key ∨ (x.qpn = 0 ∧ x.gid ≠ q.gid) then s.accessNak x.qpn
  else match x.space with
    | 0 => if q.holder < 512 then s.inWard x q.holder else s.accessNak x.qpn
    | 1 => s.inDoorbell x
    | 2 => if q.holder = ownerHolder then s.inCsr x else s.accessNak x.qpn
    | 3 => if x.qpn = 0 then s.inMgmt x else s.accessNak x.qpn
    | _ => s.accessNak x.qpn

/-- A request other than a WRITE into the port's own inbox is rejected and counted (R199). -/
def State.rejectExport (s : State) (n : Nat) : State := (s.nakCount n).qpAnswer n ansInvalid

/-- A WRITE into a slot of an inbox by its owner p: the bytes, and what a new GRANT_TAIL brings (R212, R213). -/
def State.inboxPut (s : State) (p port slot off : Nat) (bs : List Byte) : State :=
  let a := inboxAddr port slot
  let s := s.write (a + off) bs
  if off < 4 then s.grantTail p port slot (s.peekN a 4) else s

/-- A request on a queue pair of an export port (R199, R212, R328). -/
def State.onExportPort (s : State) (x : Inbound) (q : Qp) : State :=
  match region x.addr, x.data with
  | .inbox port off, some bs =>
    if port + 1 ≠ q.port then s.rejectExport x.qpn
    else if x.key ≠ q.key ∨ off % 0x40000 + x.len > 0x40000 then s.accessNak x.qpn
    else match s.slotOwner x.qpn port (off / 0x40000) with
      | some p => (s.inboxPut p port (off / 0x40000) (off % 0x40000) bs).qpAnswer x.qpn ansAck
      | none => s.accessNak x.qpn
  | _, _ => s.rejectExport x.qpn

/-- Packets of an inbound message are counted in the expected PSN. -/
def State.countPsn (s : State) (n len : Nat) : State :=
  s.modQp n fun q => { q with recvPsn := (q.recvPsn + max 1 (ceilDiv len (mtuBytes q.mtu))) % 2 ^ 24 }

/-- An inbound request: dropped where no queue pair in RTS takes it. -/
def State.inbound (s : State) (x : Inbound) : State :=
  match s.qp x.qpn with
  | none => s
  | some q =>
    if q.state ≠ .rts ∨ s.linkUp q.port = false ∨ s.hostServes = false then s
    else
      let s := s.countPsn x.qpn x.len
      if q.port = 0 then s.onHostPort x q else s.onExportPort x q

/-- R326: what a port does not support is counted in its REJECTS: a frame is dropped, a request of another operation
answered with an invalid-request NAK. -/
def State.unsupported (s : State) (f : InFrame) : State :=
  match f.fit with
  | .inside => s
  | .frame port => if s.linkUp port then s.bump .hostPortStat_REJECTS port else s
  | .operation =>
    match s.qp f.qpn with
    | none => s
    | some q =>
      if q.state ≠ .rts ∨ s.linkUp q.port = false ∨ s.hostServes = false then s
      else (s.bump .hostPortStat_REJECTS q.port).qpAnswer f.qpn ansInvalid

/-- INBOUND_RDMA_WRITE (R326, R328). -/
def execInboundRdmaWrite (f : InFrame) (gid : Nat) (rkey : BitVec 32) (addr : Nat) (data : List Byte) (s : State) : Out :=
  .next (if f.fit = .inside then
      s.inbound { qpn := f.qpn, gid := gid, rkey := rkey.toNat, addr := addr, len := data.length, data := some data }
    else s.unsupported f)

/-- INBOUND_RDMA_READ (R326, R328). -/
def execInboundRdmaRead (f : InFrame) (gid : Nat) (rkey : BitVec 32) (addr len : Nat) (s : State) : Out :=
  .next (if f.fit = .inside then s.inbound { qpn := f.qpn, gid := gid, rkey := rkey.toNat, addr := addr, len := len }
    else s.unsupported f)

/-- RDMA_WRITE_WITH_IMMEDIATE (R327): an invalid-request NAK, counted. -/
def execRdmaWriteWithImmediate (qpn : Nat) (s : State) : Out :=
  match s.qp qpn with
  | none => .next s
  | some q =>
    if q.state ≠ .rts ∨ s.linkUp q.port = false ∨ s.hostServes = false then .next s
    else if q.port = 0 then .next ((s.bump .hostPortStat_REJECTS 0).qpAnswer qpn ansInvalid)
    else .next (s.rejectExport qpn)

/-! ### What comes back to the device -/

/-- Whether an outbound message is a host READ. -/
def RdmaOut.isRead (m : RdmaOut) : Bool := decide (m.kind = 2)

/-- Data written whatever the permissions of its pages: a LOAD fills a range that its ward may only read. -/
def State.fillMapped (s : State) (m : MgmtCmd) (bs : List Byte) : State :=
  let va := m.param 1
  ((((s.ward (m.param 0)).map (·.maps)).getD []).filter fun y => decide (va ≤ y.va) && decide (y.va < va + m.param 2)).foldl
    (fun s y => match y.target with
      | .hbm a => s.write a (sliceOf bs (y.va - va) (2 ^ y.log))
      | .lent _ _ _ => s) s

/-- RDMA_READ_RESPONSE (R327): the data that LOAD or FW_UPDATE asked for, or its failure. -/
def execRdmaReadResponse (data : Option (List Byte)) (s : State) : Out :=
  let read := ((((s.qp 0).map (·.onWay)).getD []).find? RdmaOut.isRead)
  match read, s.host.mgmt with
  | some r, some m =>
    if s.hostRts 0 = false ∨ m.stage ≠ 1 then .next s else
    match data with
    | none => .next ((s.acked 0 RdmaOut.isRead).hostReadFails)
    | some bs =>
      if bs.length ≠ r.len then .next s else
      let s := s.acked 0 RdmaOut.isRead
      if m.code = 0x11 then .next ((s.fillMapped m bs).mgmtDone m 0)
      else if m.code = 0x44 then .next (s.takeBundle m bs)
      else .next s
  | _, _ => .next s

/-- HOST_RDMA_WRITE_ACKNOWLEDGED (R338): the oldest unacknowledged WRITE of a host-port queue pair is released. -/
def execHostRdmaWriteAcknowledged (qpn : Nat) (s : State) : Out :=
  Out.when (s.hostRts qpn) s (s.acked qpn fun m => !m.isRead)

/-! ### Congestion (R334) -/

/-- Line rate of a port in b/s. -/
def lineRate : Rat := 800000000000

/-- Whether a port sends CNPs and reacts to them. -/
def State.ecn (s : State) (port : Nat) : Bool := s.flag .hostEcnCfg_ECN_EN port

/-- Least time between two CNPs of a queue pair, in ns. -/
def cnpGap : Nat := 50000

/-- CE_MARKED_PACKET (R334): a CNP, at most one in 50 us. -/
def execCeMarkedPacket (qpn : Nat) (s : State) : Out :=
  match s.qp qpn with
  | none => .next s
  | some q =>
    let early := match q.lastCnp with | some t => decide (s.raw < t + cnpGap) | none => false
    if q.state ≠ .rts ∨ s.linkUp q.port = false ∨ s.ecn q.port = false ∨ early = true then .next s
    else .next ((s.modQp qpn fun q => { q with lastCnp := some s.raw, cnpsSent := q.cnpsSent + 1 }).qpAnswer qpn ansCnp)

/-- 2^GSHIFT of a port (Table 13.7). -/
def State.gain (s : State) (port : Nat) : Rat := ((2 ^ s.rd .hostEcnCfg_GSHIFT port : Nat) : Rat)

/-- A queue pair after a CNP: alpha rises first, then the rate is cut; the target keeps the rate before the cut. -/
def Qp.cut (q : Qp) (g floor : Rat) : Qp :=
  let a := ((g - 1) * q.alpha + 1) / g
  { q with alpha := a, target := q.rate, rate := max floor (q.rate * (1 - a / 2)), periods := 0 }

/-- A queue pair after a period without a CNP. -/
def Qp.recover (q : Qp) (g step : Rat) : Qp :=
  let target := if q.periods < 5 then q.target else min lineRate (q.target + step)
  { q with alpha := (g - 1) * q.alpha / g, target := target, rate := (q.rate + target) / 2, periods := q.periods + 1 }

/-- A rate in Gb/s. -/
def gbps (n : Nat) : Rat := (n : Rat) * 1000000000

/-- CNP (R334). -/
def execCnp (qpn : Nat) (s : State) : Out :=
  match s.qp qpn with
  | none => .next s
  | some q =>
    Out.when (decide (q.state = .rts) && s.linkUp q.port && s.ecn q.port) s
      (s.modQp qpn fun x => x.cut (s.gain q.port) (gbps (s.rd .hostEcnCfg_MIN_GBPS q.port)))

/-- RATE_RECOVERY_PERIOD_END (R334): a full period of PERIOD_US without a CNP. -/
def execRateRecoveryPeriodEnd (qpn : Nat) (s : State) : Out :=
  match s.qp qpn with
  | none => .next s
  | some q =>
    Out.when (decide (q.state = .rts) && s.ecn q.port) s
      (s.modQp qpn fun x => x.recover (s.gain q.port) (gbps (s.rd .hostEcnCfg_STEP_GBPS q.port)))

/-- PFC_PAUSE_FRAME (R334): the lossless priority of a port pauses or goes on, with what waited for it; other priorities are
not paused. -/
def execPfcPauseFrame (port prio : Nat) (pause : Bool) (s : State) : Out :=
  Out.when (decide (port < 5) && s.linkUp port && decide (prio = s.rd .hostEcnCfg_PRIO port)) s
    (({ s with host := { s.host with paused := Smap.put 0 s.host.paused port (if pause then 1 else 0) } } : State).flushPort port)

/-! ### The host port's link (R337, R395) -/

/-- HOST_LINK_DOWN (R337, R395): outbound traffic is held, the port trains again; the fourth in 10 s is reported. -/
def execHostLinkDown (s : State) : Out :=
  if s.linkUp 0 = false then .next s else
  let (s, fourth) := s.linkDown 0
  .next (if fourth then s.hostPoor 1 else s)

/-- HOST_LINK_UP (R337): the port has trained; held traffic goes on. -/
def execHostLinkUp (s : State) : Out := Out.when (s.fclk && decide (s.link 0 = 1)) s ((s.wr .hostPortStat_LINK 0 2).flushPort 0)

end Sys2Proof.Machine
end

