-- ==== Sys2Proof/Machine/I3c.lean ====
section
/-! DEFINITION. The I3C target (R424, R451, R452). -/
namespace Sys2Proof.Machine

/-- Whether the target answers: from the moment RESET_N rises (R424), while PWR_GOOD is high. -/
def State.sideUp (s : State) : Bool := s.boot.pwrGood && s.boot.resetN

/-- The state with the target changed. -/
def State.modSide (s : State) (f : Sideband → Sideband) : State := { s with side := f s.side }

/-- An SMBus transfer: a target without a dynamic address follows SMBus from then on (R451). -/
def State.meetBus (s : State) : State := s.modSide fun x => if x.addr.isNone then { x with smbus := true } else x

/-- What the target answered. -/
def State.answers (s : State) (bs : List Byte) : State := s.modSide fun x => { x with answer := bs }

/-! ### Private transfers (R452) -/

/-- Whether the target may read a word: any after step 4, before that SYS_START_STAT and the trouble log (R424). -/
def State.sideReads (s : State) (off : Nat) : Bool :=
  s.csrUp || match Reg.atCsr off with
    | some (.sysStartStat, _, _) => true
    | some (.logStat, _, _) => true
    | some (.logEntry, _, _) => true
    | _ => false

/-- The fields of a private write's header (Table 19.5a). -/
structure SideHead where
  op : Nat := 0
  len : Nat := 0
  offset : Nat := 0
deriving DecidableEq, Repr

/-- The header of a private write. -/
def sideHead (bs : List Byte) : SideHead :=
  { op := ofBytes (bs.take 1), len := ofBytes (sliceOf bs 1 1), offset := ofBytes (sliceOf bs 2 4) }

/-- Whether a transfer has a sound header and the data that its OP and LEN ask for. -/
def sideOk (bs : List Byte) : Bool :=
  let h := sideHead bs
  decide (6 ≤ bs.length) && decide (1 ≤ h.len) && decide (h.len ≤ 8) && decide (h.offset % 8 = 0) && decide (h.offset < 2 ^ 28)
    && (if h.op = 0x10 then decide (bs.length = 6) else decide (h.op = 0x20) && decide (bs.length = 6 + 8 * h.len))

/-- A byte taken into the CRC-8 of SMBus, x^8 + x^2 + x + 1 (PRESUMED, log entry 173). -/
def crc8 (c : BitVec 8) (b : Byte) : BitVec 8 :=
  (List.range 8).foldl (fun c _ => if c.getLsbD 7 then c.shiftLeft 1 ^^^ 7 else c.shiftLeft 1) (c ^^^ b)

/-- The PEC of a Block Write to 0x4C: over address, command code, byte count and bytes. -/
def pecOf (bs : List Byte) : Byte :=
  ((0x98 : Byte) :: bs.take 1 ++ [BitVec.ofNat 8 (bs.length - 1)] ++ bs.drop 1).foldl crc8 0

/-- A Block Write without its PEC, which is checked where the host appends one (R451); one whose PEC is wrong keeps it, and
so has a length that is not sound. -/
def dropPec (bs : List Byte) : List Byte := if bs.getLast? = some (pecOf bs.dropLast) ∧ bs.length % 8 = 7 then bs.dropLast else bs

/-- The bytes of a private write; an SMBus host may append a PEC. -/
def State.sideData (s : State) (bs : List Byte) : List Byte := if s.side.smbus then dropPec bs else bs

/-- The bytes of a private read; a Block Read of SMBus begins with their count (R452). -/
def State.sideBlock (s : State) (bs : List Byte) : List Byte := if s.side.smbus then bytesOf 1 bs.length ++ bs else bs

/-- The end of a private write. -/
def State.sideStatus (s : State) (status : Nat) (reading : Bool) : State :=
  s.modSide fun x => { x with status := status, reading := reading }

/-- OP 0x10: the read pointer, refused where the range may not be read. -/
def State.sidePoint (s : State) (h : SideHead) : State :=
  if (List.range h.len).all fun i => s.sideReads (h.offset + 8 * i) then
    (s.modSide fun x => { x with pointer := h.offset, len := h.len }).sideStatus 0 true
  else s.sideStatus 1 false

/-- Whether a word may be written by the target at all (R452). -/
def State.sideWrites (s : State) (off : Nat) : Bool :=
  s.csrUp && match Reg.atCsr off with
    | some (r, _, _) => !r.denied .i3c
    | none => true

/-- OP 0x20: the words applied one at a time in ascending address; those refused are left out. -/
def State.sideWords (s : State) (h : SideHead) (data : List Byte) : State :=
  let (s, refused) := (List.range h.len).foldl (fun (a : State × Bool) i =>
    let off := h.offset + 8 * i
    if a.1.sideWrites off then (a.1.csrPut .i3c off (wordAt data i), a.2) else (a.1, true)) (s, false)
  s.sideStatus (if refused then 1 else 0) false

/-- A private write; a malformed one gives STATUS 2. -/
def State.sideWrite (s : State) (bs : List Byte) : State :=
  let h := sideHead bs
  if sideOk bs = false then s.sideStatus 2 false
  else if h.op = 0x10 then s.sidePoint h
  else s.sideWords h (bs.drop 6)

/-- SET_POINTER (R452): a private write with OP 0x10 or an OP that has no meaning. -/
def execSetPointer (data : List Byte) (s : State) : Out :=
  Out.when (s.sideUp && decide ((sideHead data).op ≠ 0x20)) s (s.meetBus.sideWrite (s.meetBus.sideData data))

/-- WRITE_WORDS (R452): a private write with OP 0x20. -/
def execWriteWords (data : List Byte) (s : State) : Out :=
  Out.when (s.sideUp && decide ((sideHead data).op = 0x20)) s (s.meetBus.sideWrite (s.meetBus.sideData data))

/-- PRIVATE_READ (R452): STATUS, then the data pointed at, and the pointer goes on. The write before it has finished,
since each command is one whole step. A range that may not be read is refused with a NACK (R424). -/
def execPrivateRead (s : State) : Out :=
  if s.sideUp = false then .next s else
  let s := s.meetBus
  let x := s.side
  let st := bytesOf 1 x.status
  if x.reading = false then .next (s.answers (s.sideBlock st))
  else if ((List.range x.len).all fun i => s.sideReads (x.pointer + 8 * i)) = false then .next (s.answers [])
  else .next ((s.answers (s.sideBlock (st ++ s.csrReadWords .i3c x.pointer x.len))).modSide fun y => { y with pointer := y.pointer + 8 * y.len })

/-! ### Common command codes (R451) -/

/-- Whether the target follows I3C. -/
def State.i3cUp (s : State) : Bool := s.sideUp && !s.side.smbus

/-- Whether the target has a dynamic address, which a direct CCC needs. -/
def State.addressed (s : State) : Bool := s.i3cUp && s.side.addr.isSome

/-- RSTDAA: the dynamic address is reset. -/
def execRstdaa (s : State) : Out := Out.when s.i3cUp s (s.modSide fun x => { x with addr := none })

/-- A dynamic address given to a target that has none. -/
def State.takeAddr (s : State) (a : BitVec 7) : State := s.modSide fun x => { x with addr := some a.toNat, hotJoin := false }

/-- SETDASA: an address assigned from the static address 0x4C. -/
def execSetdasa (addr : BitVec 7) (s : State) : Out := Out.when (s.i3cUp && s.side.addr.isNone) s (s.takeAddr addr)

/-- ENTDAA. -/
def execEntdaa (addr : BitVec 7) (s : State) : Out := Out.when (s.i3cUp && s.side.addr.isNone) s (s.takeAddr addr)

/-- Events that the target has: interrupts and Hot-Join. -/
def sideEvents : Nat := 9

/-- ENEC. -/
def execEnec (events : BitVec 8) (s : State) : Out :=
  Out.when s.i3cUp s (s.modSide fun x => { x with events := x.events ||| (events.toNat &&& sideEvents) })

/-- DISEC. -/
def execDisec (events : BitVec 8) (s : State) : Out :=
  Out.when s.i3cUp s (s.modSide fun x => { x with events := x.events &&& (255 ^^^ events.toNat) })

/-- The fixed answer to a CCC: the spec names the CCC and no value, so its bytes are constants without a body (log
entry 2). -/
def fixedAnswer (k n : Nat) : List Byte := (List.range n).map fun i => Config.i3cByte k i

/-- GETPID: six bytes. -/
def execGetpid (s : State) : Out := Out.when s.addressed s (s.answers (fixedAnswer 0 6))

/-- GETBCR: one byte. -/
def execGetbcr (s : State) : Out := Out.when s.addressed s (s.answers (fixedAnswer 1 1))

/-- GETDCR: one byte. -/
def execGetdcr (s : State) : Out := Out.when s.addressed s (s.answers (fixedAnswer 2 1))

/-- GETSTATUS: two bytes, which no rule gives: free values. -/
def execGetstatus (s : State) : Out :=
  let (t, bs) := State.freeBytes 2 s
  Out.when s.addressed s (t.answers bs)

/-- GETMXDS: two bytes. -/
def execGetmxds (s : State) : Out := Out.when s.addressed s (s.answers (fixedAnswer 3 2))

/-- HOT_JOIN: asked for once after RESET_N rises, while the target has no address and the event is enabled. -/
def execHotJoin (s : State) : Out :=
  Out.when (s.i3cUp && s.side.mayJoin && s.side.addr.isNone && s.side.events.testBit 3) s
    (s.modSide fun x => { x with mayJoin := false, hotJoin := true })

end Sys2Proof.Machine
end

