-- ==== Sys2Proof/Machine/Jtag.lean ====
section
/-! DEFINITION. The JTAG TAP (R468). Its registers shift outside the model: an instruction is one command, and the data
that it shifts in is its operand. -/
namespace Sys2Proof.Machine

/-- The TAP under an instruction that leaves the pins alone. -/
def Jtag.release (j : Jtag) (ir : JtagIr) : Jtag := { j with ir := ir, driven := none, hiz := false }

/-- The TAP under an instruction that takes control of pins: only while RESET_N is low, else it acts as BYPASS. -/
def State.takePins (s : State) (f : Jtag → Jtag) : State :=
  { s with jtag := if s.boot.resetN then s.jtag.release .bypass else f s.jtag }

/-- BYPASS. -/
def execBypass (s : State) : Out := .next { s with jtag := s.jtag.release .bypass }

/-- The IDCODE register (R468). -/
def idcodeValue : Nat := 0x4E04 * 2 ^ 12 + Config.jepCode.toNat * 2 + 1

/-- IDCODE: the register captured. -/
def execIdcode (s : State) : Out := .next { s with jtag := { s.jtag.release .idcode with captured := idcodeValue } }

/-- SAMPLE_PRELOAD: the boundary register preloaded; what it samples of the pins is a free value, since the BSDL lists its
cells (log entry 2). -/
def execSamplePreload (data : Nat) (s : State) : Out :=
  let (s, w) := s.free
  .next { s with jtag := { s.jtag.release .samplePreload with preload := data, captured := w.toNat } }

/-- EXTEST: the pins driven. -/
def execExtest (pins : Nat) (s : State) : Out :=
  .next (s.takePins fun j => { j with ir := .extest, preload := pins, driven := some pins, hiz := false })

/-- EXTEST_PULSE (IEEE 1149.6): the SerDes lanes driven from the boundary register. -/
def execExtestPulse (s : State) : Out :=
  .next (s.takePins fun j => { j with ir := .extestPulse, driven := some j.preload, hiz := false })

/-- EXTEST_TRAIN (IEEE 1149.6). -/
def execExtestTrain (s : State) : Out :=
  .next (s.takePins fun j => { j with ir := .extestTrain, driven := some j.preload, hiz := false })

/-- CLAMP: outputs held from the boundary register, bypass selected. -/
def execClamp (s : State) : Out :=
  .next (s.takePins fun j => { j with ir := .clamp, driven := some j.preload, hiz := false })

/-- HIGHZ: outputs in high impedance. -/
def execHighz (s : State) : Out := .next (s.takePins fun j => { j with ir := .highz, driven := none, hiz := true })

/-- TAP_RESET: the TAP through TRST_N or TMS, never the device. -/
def execTapReset (_viaTrst : Bool) (s : State) : Out := .next { s with jtag := s.jtag.release .idcode }

end Sys2Proof.Machine
end

