-- ==== Sys2Proof/Machine/Mmf.lean ====
section
/-! DEFINITION. MMF.EXP and MMF.ROW: one block of a fused pair of products (R140 to R143, R315). -/
namespace Sys2Proof.Machine

/-- Table 12.7: the decode checks. -/
def mmfOk (w : MmfWord) (row : Bool) : Bool :=
  w.ext && decide (w.rsv = 0) && decide (w.rsvExt = 0) && decide (w.afmt.toNat ≤ 4) && decide (w.bfmt.toNat ≤ 4)
    && decide (w.rd.toNat < 8) && decide (w.ra.toNat < 32) && decide (w.rb.toNat < 32) && decide (w.form ≠ 3)
    && (if row then decide (w.rc = 0) else !w.kind) && unused w.ref w.refBuf

/-- What an MMF works on. -/
structure MmfJob where
  a : TDesc := {}
  b : TDesc := {}
  d : TDesc := {}
  wide : Bool := false
  area : Nat := 0
  buf : Nat := 0
deriving DecidableEq, Repr

/-- The job of an instruction (R315). -/
def mmfJob (k : Core) (t : TileCtx) (w : MmfWord) : MmfJob :=
  let d (n : Nat) : TDesc := k.desc n
  let form := expertVal t w.form.toNat
  let b := d w.rb.toNat
  { a := d w.ra.toNat, b := b, d := d w.dt.toNat, wide := decide (form = 2) || (decide (form = 0) && decide (b.cols > 64)),
    area := k.adr w.darea.toNat, buf := k.adr w.refBuf.toNat }

/-- Bytes of the reference buffer: the values row by row, then the anchors (R143; log entry 144). -/
def MmfJob.bufBytes (j : MmfJob) : Nat := 4 * (j.a.rows * j.b.cols) + 4 * j.a.rows

/-- The checks of R46, R102 and R315. -/
def State.mmfCode (s : State) (c : Nat) (w : MmfWord) (j : MmfJob) : Nat :=
  let lim := if j.wide then 256 else 64
  firstCode [
    failIf (!(j.a.ok && j.b.ok && j.d.ok)) cDescriptor,
    failIf (decide (j.a.fmtCode ≠ w.afmt.toNat) || decide (j.b.fmtCode ≠ w.bfmt.toNat)) cDescriptor,
    failIf (decide (j.a.rows > 128) || decide (j.b.cols > lim) || decide (j.d.cols > lim)) cDescriptor,
    failIf (decide (j.a.cols ≠ j.b.rows) || decide (j.d.rows ≠ j.b.cols)) cDescriptor,
    failIf (decide (w.rd.toNat + ceilDiv j.a.rows (tileRows j.wide) > 8)) cDescriptor,
    failIf (decide (j.area % 64 ≠ 0) || (w.ref && decide (j.buf % 64 ≠ 0))) cDescriptor,
    failIf (!(j.a.own s c && j.b.own s c && j.d.own s c && s.own c j.area (32 * j.a.rows))) cNotLocal,
    failIf (w.ref && !s.own c j.buf j.bufBytes) cNotLocal]

/-- The block's product x in wide form (R140), with the flags of each element, their K groups and their
passes. -/
def State.mmfProduct (s : State) (j : MmfJob) : List (List (Wide × List (Nat × Nat × Nat))) :=
  let int := j.a.fmt.isInt && j.b.fmt.isInt
  let one (x : List Num) : List Num := x.map Num.toCofNum
  let cols := (List.range j.b.cols).map fun n => one (s.colOf j.b j.a.cols n)
  (List.range j.a.rows).map fun r =>
    let a := one (s.rowOf j.a j.a.cols (some r))
    cols.map fun b =>
      let (acc, fl) := accElem int true j.a.cols (if j.wide then 16 else 64) [{ a := a, b := b }] {}
      (acc.value, fl)

/-- The code of a COF value in the reference buffer (R143). -/
def Cof.word (c : Cof) : Nat := (if c.s then 2 ^ 21 else 0) + c.e % 1024 * 2 ^ 11 + c.m % 2048

/-- What one row of a block gives. -/
structure MmfRow where
  row : Row := {}
  cofs : List Num := []
  events : List FlagEvent := []
  lost : Bool := false
deriving DecidableEq, Repr

/-- A row of MMF.EXP (R141): scores, anchor and numerators; the outputs are formed with the row. -/
def mmfExpRow (r : Row) (xs : List Wide) (factor : Num) (vs : List (List Num)) (depth : Nat) : MmfRow :=
  let sc := xs.map fun x => exactSum [x.toNum.mul factor]
  let fl : List FlagEvent := (sc.mapIdx fun i g => { flags := g.flags, col := i }).filter fun e => e.flags ≠ 0
  let ks : List Key := sc.mapIdx fun i g => { slot := i, s := g.chain false, v := vs.getD i [] }
  let o := r.block ks depth false
  { row := o.row, cofs := o.cofs, events := fl ++ o.events, lost := o.lost }

/-- A row of MMF.ROW (R142): the statistic of x, and x rounded to COF against D. -/
def mmfRowRow (r : Row) (xs : List Wide) (kind : Nat) (vs : List (List Num)) (depth : Nat) : MmfRow :=
  let groups := (List.range (ceilDiv xs.length 64)).map fun g => (xs.drop (64 * g)).take 64
  let (st, fl) := statAdd kind r.l.w groups
  let cs := xs.map fun x => rneToCof x.toNum
  let ks := (cs.mapIdx fun i x => (i, x.1, vs.getD i []))
  let os := r.o.mapIdx fun d o => (keyGroups (·.1) depth ks).foldl (fun (x : Acc × Nat) g =>
    let (y, f) := x.1.addGroup (groupSum (g.map fun p => p.2.1.mul (p.2.2.getD d {}))) true
    (y, x.2 ||| f)) (o, 0)
  { row := { r with l := { w := st }, o := os.map (·.1) }, cofs := cs.map (·.1),
    events := ((cs.mapIdx fun i (x : Num × Nat) => ({ flags := x.2, col := i } : FlagEvent)) ++ [({ flags := fl, time := 1 } : FlagEvent)]
      ++ os.mapIdx fun d (x : Acc × Nat) => ({ flags := x.2, col := d, time := 2 } : FlagEvent)).filter fun e => e.flags ≠ 0 }

/-- The ranges that an MMF reads. -/
def MmfJob.reads (j : MmfJob) (init : Bool) : List (Nat × Nat) :=
  [(j.a.base, j.a.span), (j.b.base, j.b.span), (j.d.base, j.d.span)] ++ (if init then [] else [(j.area, 32 * j.a.rows)])

/-- MMF.EXP and MMF.ROW once decoded. -/
def mmfRun (c : Nat) (w : MmfWord) (isRow : Bool) : Run := fun s t =>
  let s := s.noteIgnored t [w.form.toNat]
  let k := s.core c
  let j := mmfJob k t w
  let code := s.mmfCode c w j
  if code ≠ 0 then (s, code) else
  let (s, d) := s.readRanges (j.a.ranges 0 j.a.rows 0 j.a.cols ++ j.b.ranges 0 j.b.rows 0 j.b.cols
    ++ j.d.ranges 0 j.d.rows 0 j.d.cols ++ (if w.init then [] else [(j.area, 32 * j.a.rows)]))
  if d ≠ 0 then (s, d) else
  let k := s.core c
  let e := w.eng.toNat
  let k := if w.init then k.clearTiles e w.rd.toNat (ceilDiv j.a.rows (tileRows j.wide)) else k
  let key (r col : Nat) : Nat := accKey e j.wide (w.rd.toNat + r / tileRows j.wide) (r % tileRows j.wide) col
  let depth := if j.wide then 16 else 64
  let area := j.area % 2 ^ 52
  let vs := (List.range j.d.rows).map fun i => (List.range j.d.cols).map fun x => (s.elemNum j.d i x).toCofNum
  let xs := s.mmfProduct j
  let factor := Num.decode .fp32 ((k.sreg w.rc.toNat).toNat % 2 ^ 32)
  let rows := (List.range j.a.rows).map fun r =>
    let st : Row := if w.init then {} else Row.decode (s.peek (area + 32 * r) 32)
    let st := { st with o := (List.range j.d.cols).map fun x => k.accAt (key r x) }
    let x := (xs.getD r []).map (·.1)
    if isRow then mmfRowRow { st with nan := false } x (if w.kind then 3 else 1) vs depth
    else mmfExpRow st x factor vs depth
  let k := (rows.mapIdx fun r o => (r, o)).foldl (fun k p =>
    (p.2.row.o.mapIdx fun x a => (x, a)).foldl (fun k q => k.setAcc (key p.1 q.1) { q.2 with int := false }) k) k
  let s := s.setCore c k
  let s := s.write area (rows.flatMap fun o => o.row.encode 0)
  let s := if w.ref then
      s.write (j.buf % 2 ^ 52) (rows.flatMap (fun o => o.cofs.flatMap fun x => bytesOf 4 x.cof.word)
        ++ rows.flatMap fun o => bytesOf 4 (match o.row.a with | some a => unsignedOf 32 a | none => 2 ^ 31))
    else s
  let ev1 : List FlagEvent := (xs.mapIdx fun r l => (l.mapIdx fun n x =>
    x.2.map fun p =>
      ({ flags := p.1, row := r, col := n, kgroup := p.2.1, time := passCycle 1 1 0 j.a.rows p.2.2 r } : FlagEvent)).flatten).flatten
  let (s, x) := s.free
  let ev2 : List FlagEvent := (rows.mapIdx fun r o =>
    o.events.map fun e => { e with row := r, kgroup := x.toNat % 2 ^ 32, time := e.time * j.a.rows + r }).flatten
  let s := (s.raise c t ev1).raise c t ev2
  let s := s.engineStatus c j.wide false false 0
  let s := s.modEngine c e fun g => g.runPasses (passBlocks j.a.cols j.b.cols depth [fun n => (s.colOf j.b j.a.cols n).map Num.toCofNum]
    ++ passBlocks j.d.rows j.d.cols depth [fun n => vs.map fun v => v.getD n {}])
  (if rows.any (·.lost) then s.orStatus c 0x10000 else s, 0)

/-- An MMF; one whose operands a block holds stays in its queue (R48). -/
def State.mmf (s : State) (c : Nat) (w : MmfWord) (row : Bool) : Out :=
  let held := s.heldFor c fun t => (s.core c).accHeld || ((mmfJob (s.core c) t w).reads w.init).any fun r => s.blocked c r.1 r.2
  s.issueUnless c 2 held (mmfOk w row) (mmfRun c w row)

/-- MMF.EXP (R141). -/
def execMmfExp (c : Nat) (w : MmfWord) (s : State) : Out := s.mmf c w false

/-- MMF.ROW (R142). -/
def execMmfRow (c : Nat) (w : MmfWord) (s : State) : Out := s.mmf c w true

end Sys2Proof.Machine
end

