-- ==== Sys2Proof/Machine/Seq.lean ====
section
/-! DEFINITION. The sequencer instructions of UNIT 0 (Tables 12.2 and 12.3, R312), except END, which
Sys2Proof.Machine.Release holds. -/
namespace Sys2Proof.Machine

/-- The second operand: RB, or sext(IMM) with I = 1 (Table 12.2). -/
def Core.operandB (k : Core) (w : ScalarWord) : Word := if w.i then sext20 w.imm else k.sreg w.rb.toNat

/-- RD := f(RA, B). -/
def aluRun (c : Nat) (w : ScalarWord) (f : Word → Word → Word) : Run := fun s _ =>
  let k := s.core c
  (s.putS c w.rd.toNat (f (k.sreg w.ra.toNat) (k.operandB w)), 0)

/-- An arithmetic instruction or shift (R312). -/
def State.alu (s : State) (c : Nat) (w : ScalarWord) (f : Word → Word → Word) : Out :=
  s.issue c 1 (w.ok true true true (!w.i) w.i) (aluRun c w f)

/-- NOP: none (Table 12.3). -/
def execNop (c : Nat) (w : ScalarWord) (s : State) : Out :=
  s.issue c 1 (w.ok false false false false false) fun s _ => (s, 0)

/-- ADD (R312): wraps modulo 2^64. -/
def execAdd (c : Nat) (w : ScalarWord) (s : State) : Out := s.alu c w fun a b => a + b

/-- SUB (R312). -/
def execSub (c : Nat) (w : ScalarWord) (s : State) : Out := s.alu c w fun a b => a - b

/-- AND (R312). -/
def execAnd (c : Nat) (w : ScalarWord) (s : State) : Out := s.alu c w fun a b => a &&& b

/-- OR (R312). -/
def execOr (c : Nat) (w : ScalarWord) (s : State) : Out := s.alu c w fun a b => a ||| b

/-- XOR (R312). -/
def execXor (c : Nat) (w : ScalarWord) (s : State) : Out := s.alu c w fun a b => a ^^^ b

/-- SHL: by B[5:0] (R312). -/
def execShl (c : Nat) (w : ScalarWord) (s : State) : Out := s.alu c w fun a b => a <<< (b.toNat % 64)

/-- SHR: logical, by B[5:0]. -/
def execShr (c : Nat) (w : ScalarWord) (s : State) : Out := s.alu c w fun a b => a >>> (b.toNat % 64)

/-- SRA: arithmetic, by B[5:0]. -/
def execSra (c : Nat) (w : ScalarWord) (s : State) : Out := s.alu c w fun a b => a.sshiftRight (b.toNat % 64)

/-- MUL: low 64 bits of RA x B. -/
def execMul (c : Nat) (w : ScalarWord) (s : State) : Out := s.alu c w fun a b => a * b

/-- MINU: unsigned minimum. -/
def execMinu (c : Nat) (w : ScalarWord) (s : State) : Out := s.alu c w fun a b => if a.ult b then a else b

/-- MAXU: unsigned maximum. -/
def execMaxu (c : Nat) (w : ScalarWord) (s : State) : Out := s.alu c w fun a b => if a.ult b then b else a

/-- LI: RD := sext(IMM). -/
def execLi (c : Nat) (w : ScalarWord) (s : State) : Out :=
  s.issue c 1 (w.ok false true false false true) fun s _ => (s.putS c w.rd.toNat (sext20 w.imm), 0)

/-- LIS: RD := (RA << 20) | IMM, zero-extended. -/
def execLis (c : Nat) (w : ScalarWord) (s : State) : Out :=
  s.issue c 1 (w.ok false true true false true) fun s _ =>
    (s.putS c w.rd.toNat (((s.core c).sreg w.ra.toNat <<< 20) ||| w.imm.zeroExtend 64), 0)

/-- RA + sext(IMM). -/
def Core.scalarAddr (k : Core) (w : ScalarWord) : Nat := (k.sreg w.ra.toNat + sext20 w.imm).toNat

/-- The place that LD, ST or TLD accesses. -/
def Core.dataAddr (k : Core) (w : ScalarWord) : Nat := k.here (k.scalarAddr w)

/-- LD: RD := 8 B at RA + sext(IMM). -/
def execLd (c : Nat) (w : ScalarWord) (s : State) : Out :=
  let a := (s.core c).dataAddr w
  s.issueUnless c 1 (s.blocked c a 8) (w.ok false true true false true) fun s _ =>
    let code := s.ownCode c a 8
    if code ≠ 0 then (s, code) else
    let (s, bs, d) := s.read (a % 2 ^ 52) 8
    if d ≠ 0 then (s, d) else (s.putS c w.rd.toNat (BitVec.ofNat 64 (ofBytes bs)), 0)

/-- ST: 8 B at RA + sext(IMM) := RB. -/
def execSt (c : Nat) (w : ScalarWord) (s : State) : Out :=
  let a := (s.core c).dataAddr w
  s.issueUnless c 1 (s.blocked c a 8 true) (w.ok false false true true true) fun s _ =>
    let code := s.ownCode c a 8
    if code ≠ 0 then (s, code) else (s.writeN (a % 2 ^ 52) 8 ((s.core c).sreg w.rb.toNat).toNat, 0)

/-- TLD: tRD := 32 B at RA + sext(IMM). -/
def execTld (c : Nat) (w : ScalarWord) (s : State) : Out :=
  let a := (s.core c).dataAddr w
  s.issueUnless c 1 (s.blocked c a 32) (w.ok false true true false true && decide (w.rd.toNat < 32)) fun s _ =>
    let code := s.ownCode c a 32
    if code ≠ 0 then (s, code) else
    let (s, bs, d) := s.read (a % 2 ^ 52) 32
    if d ≠ 0 then (s, d) else (s.setCore c ((s.core c).setT w.rd.toNat (BitVec.ofNat 256 (ofBytes bs))), 0)

/-- TBASE: tRD.BASE := RA + sext(IMM); instructions already issued keep their copy (R308). -/
def execTbase (c : Nat) (w : ScalarWord) (s : State) : Out :=
  s.issue c 1 (w.ok false true true false true && decide (w.rd.toNat < 32)) fun s _ =>
    let k := s.core c
    let d := (k.treg w.rd.toNat).toNat
    (s.setCore c (k.setT w.rd.toNat (BitVec.ofNat 256 (d / 2 ^ 64 * 2 ^ 64 + k.scalarAddr w))), 0)

/-- PC := PC + sext(IMM) x 8, from the branch's own address. -/
def Core.jump (k : Core) (imm : BitVec 20) : Core :=
  { k with pc := (BitVec.ofNat 64 k.pc - 8 + sext20 imm * 8).toNat }

/-- A conditional branch. -/
def State.branch (s : State) (c : Nat) (w : ScalarWord) (cond : Word → Word → Bool) : Out :=
  s.issue c 1 (w.ok false false true true true) fun s _ =>
    let k := s.core c
    (if cond (k.sreg w.ra.toNat) (k.sreg w.rb.toNat) then s.setCore c (k.jump w.imm) else s, 0)

/-- BEQ (Table 12.3). -/
def execBeq (c : Nat) (w : ScalarWord) (s : State) : Out := s.branch c w fun a b => decide (a = b)

/-- BNE. -/
def execBne (c : Nat) (w : ScalarWord) (s : State) : Out := s.branch c w fun a b => decide (a ≠ b)

/-- BLT: signed. -/
def execBlt (c : Nat) (w : ScalarWord) (s : State) : Out := s.branch c w fun a b => a.slt b

/-- BGE: signed. -/
def execBge (c : Nat) (w : ScalarWord) (s : State) : Out := s.branch c w fun a b => !a.slt b

/-- BLTU: unsigned. -/
def execBltu (c : Nat) (w : ScalarWord) (s : State) : Out := s.branch c w fun a b => a.ult b

/-- BGEU: unsigned. -/
def execBgeu (c : Nat) (w : ScalarWord) (s : State) : Out := s.branch c w fun a b => !a.ult b

/-- JMP: PC := PC + sext(IMM) x 8. -/
def execJmp (c : Nat) (w : ScalarWord) (s : State) : Out :=
  s.issue c 1 (w.ok false false false false true) fun s _ => (s.setCore c ((s.core c).jump w.imm), 0)

end Sys2Proof.Machine
end

