-- ==== Sys2Proof/Machine/TorusTime.lean ====
section
/-! DEFINITION. Device time across the torus (R271 to R273). -/
namespace Sys2Proof.Machine

/-- TIME_EXCHANGE (R271): an up port sends a time flit: the time now, the time at which the peer's last flit came (0 where
none has), and the root that this device follows, or itself. -/
def execTimeExchange (port : Nat) (s : State) : Out :=
  if s.portIs port 2 = false then .next s else
  let h := s.port port
  let offer : Nat × Nat := if s.hinge.following.isSome then (s.rd .hngTimeStat_ROOT, s.rd .hngTimeStat_HOPS) else (s.node, 0)
  let f : TimeFlit := { sentAt := s.time, prevRx := h.lastRx, root := offer.1, hops := offer.2 }
  let s := s.setPort port { h with lastTx := s.time }
  .next { s with hinge := { s.hinge with timeSent := s.hinge.timeSent ++ [(port, f)] } }

/-- A signed value of 16 bits that saturates at plus and minus 32,767. -/
def sat16 (x : Int) : Nat := unsignedOf 16 (max (-32767) (min 32767 x))

/-- The exchanges of the ports forgotten: their times were those before a step. -/
def State.dropExchanges (s : State) : State :=
  { s with hinge := { s.hinge with ports := s.hinge.ports.map fun h => { h with lastTx := 0, lastRx := 0 } } }

/-- The time taken from the upstream (R272): a step at the first lock; afterwards the difference is slewed by at most 1 ns
for each µs from now on. -/
def State.takeTime (s : State) (target : Int) : State :=
  let d := target - s.time
  let first := !s.hinge.everLocked
  let base := s.offset + (if first then d else 0)
  let s := ({ s with hinge := { s.hinge with timeLocked := true, everLocked := true, lockBase := base,
                                             slewBy := if first then 0 else d, slewAt := s.raw },
                       latch := { s.latch with oldOffset := none } } : State).wr .hngTimeStat_LAST_CORR 0 (sat16 d)
  if first then s.dropExchanges else s

/-- TIME_FLIT (R271 to R273): the choice of root and upstream; and, once an exchange is complete (this device has sent its
own flit, and the peer has received one), the link delay and the time of the upstream. A flit whose CRC failed is
discarded. -/
def execTimeFlit (port : Nat) (f : TimeFlit) (s : State) : Out :=
  if s.portIs port 2 = false ∨ f.crcOk = false then .next s else
  let h := s.port port
  let t := s.time
  let delay : Int := (((t : Int) - h.lastTx) - ((f.sentAt : Int) - f.prevRx)) / 2
  let s := (s.setPort port { h with lastRx := t, peerRoot := f.root, peerHops := f.hops }).chooseRoot
  .next (if s.hinge.following = some port ∧ h.lastTx ≠ 0 ∧ f.prevRx ≠ 0 then s.takeTime ((f.sentAt : Int) + delay) else s)

/-- UPSTREAM_TIMEOUT (R272): the upstream has been silent for 1 ms. -/
def execUpstreamTimeout (s : State) : Out :=
  match s.hinge.following with
  | none => .next s
  | some p =>
    let h := s.port p
    .next (s.setPort p { h with peerHops := 32 }).chooseRoot

end Sys2Proof.Machine
end

