-- ==== Sys2Proof/Machine/Vector.lean ====
section
/-! DEFINITION. The vector instructions outside a chain: Tables 12.8, 12.9 and 12.11, R82, R83, R87, R316, R317. -/
namespace Sys2Proof.Machine

/-- What a lane forms before its rounding: a code of its own, or an exact magnitude to round, with flags. -/
inductive LaneVal where
  | code (c flags : Nat)
  | mag (neg : Bool) (m : Mag) (flags : Nat)
deriving DecidableEq, Repr

/-- The lane's value rounded once to FP32 (R316). -/
def LaneVal.round (r : Rounding) : LaneVal → Nat × Nat
  | .code c fl => (c, fl)
  | .mag neg m fl => let (c, f) := roundFloat .fp32 r neg m; (c, f ||| fl)

/-- A signed infinity and zero in FP32. -/
def fp32Inf (neg : Bool) : Nat := (if neg then 2 ^ 31 else 0) + Fmt.fp32.inf
def fp32Zero (neg : Bool) : Nat := if neg then 2 ^ 31 else 0

/-- An exact sum of terms as a lane value; the sign of an exact zero is that of R77. -/
def GroupSum.laneVal (g : GroupSum) : LaneVal :=
  if g.nan then .code Fmt.fp32.nan g.flags
  else if g.pinf then .code (fp32Inf false) g.flags
  else if g.ninf then .code (fp32Inf true) g.flags
  else if g.sum.m = 0 then .code (fp32Zero (decide (g.terms = .negZero))) g.flags
  else .mag (decide (g.sum.m < 0)) ⟨g.sum.m.natAbs, g.sum.e, false⟩ g.flags

/-- VADD, VSUB, VMUL and VFMA as exact sums (R316). -/
def vAdd (a b _c : Num) : LaneVal := (exactSum [a.term, b.term]).laneVal
def vSub (a b _c : Num) : LaneVal := (exactSum [a.term, b.negate.term]).laneVal
def vMul (a b _c : Num) : LaneVal := (exactSum [a.mul b]).laneVal

/-- A NaN operand of a function: the canonical NaN, INVALID for a signalling one (R316). -/
def nanVal (x : Num) : LaneVal := .code Fmt.fp32.nan (if x.cls = .snan then flInvalid else 0)

/-- RA x RB + RC, rounded once; a quiet NaN among the operands gives the canonical NaN without a flag whatever the
product is, a signalling one raises INVALID (R316). -/
def vFma (a b c : Num) : LaneVal :=
  if [a, b, c].any fun x => x.cls = .snan then .code Fmt.fp32.nan flInvalid
  else if [a, b, c].any (·.isNan) then .code Fmt.fp32.nan 0
  else (exactSum [a.mul b, c.term]).laneVal

/-- 2^x with Table 5.5's special values. -/
def vExp2 (a _b _c : Num) : LaneVal :=
  match a.cls with
  | .zero => .mag false ⟨1, 0, false⟩ 0
  | .inf => .code (if a.neg then 0 else fp32Inf false) 0
  | .fin => .mag false (exp2Mag a.dy) 0
  | _ => nanVal a

/-- log2 x. -/
def vLog2 (a _b _c : Num) : LaneVal :=
  match a.cls with
  | .zero => .code (fp32Inf true) flDivzero
  | .inf => if a.neg then .code Fmt.fp32.nan flInvalid else .code (fp32Inf false) 0
  | .fin => if a.neg then .code Fmt.fp32.nan flInvalid else let (n, m) := log2Mag a.sig a.ex; .mag n m 0
  | _ => nanVal a

/-- 1 / x. -/
def vRcp (a _b _c : Num) : LaneVal :=
  match a.cls with
  | .zero => .code (fp32Inf a.neg) flDivzero
  | .inf => .code (fp32Zero a.neg) 0
  | .fin => .mag a.neg (magDiv 1 0 a.sig a.ex) 0
  | _ => nanVal a

/-- The square root. -/
def vSqrt (a _b _c : Num) : LaneVal :=
  match a.cls with
  | .zero => .code (fp32Zero a.neg) 0
  | .inf => if a.neg then .code Fmt.fp32.nan flInvalid else .code (fp32Inf false) 0
  | .fin => if a.neg then .code Fmt.fp32.nan flInvalid else .mag false (magSqrt a.sig a.ex) 0
  | _ => nanVal a

/-- The reciprocal square root. -/
def vRsqrt (a _b _c : Num) : LaneVal :=
  match a.cls with
  | .zero => .code (fp32Inf a.neg) flDivzero
  | .inf => if a.neg then .code Fmt.fp32.nan flInvalid else .code 0 0
  | .fin => if a.neg then .code Fmt.fp32.nan flInvalid else .mag false (magRsqrt a.sig a.ex) 0
  | _ => nanVal a

/-- a / b with the special values of W.DIV; a zero quotient is +0 (Table 5.5). -/
def vDiv (a b _c : Num) : LaneVal :=
  let neg := a.neg ^^ b.neg
  if a.isNan || b.isNan then
    .code Fmt.fp32.nan (if a.cls = .snan ∨ b.cls = .snan then flInvalid else 0)
  else if (a.cls = .zero ∧ b.cls = .zero) ∨ (a.cls = .inf ∧ b.cls = .inf) then .code Fmt.fp32.nan flInvalid
  else if a.cls = .inf then .code (fp32Inf neg) 0
  else if b.cls = .zero then .code (fp32Inf neg) flDivzero
  else if a.cls = .zero ∨ b.cls = .inf then .code 0 0
  else .mag neg (magDiv a.sig a.ex b.sig b.ex) 0

/-- An operand's code in FP32, unrounded: the operand is an FP32 value. -/
def fp32Code (x : Num) : Nat := (roundNum .fp32 {} x).1

/-- VMIN, VMAX, VMINNUM and VMAXNUM (R83). -/
def vMinMax (op : Nat) (a b _c : Num) : LaneVal :=
  let (x, fl) := Num.minMax op a b
  .code (fp32Code { x with cls := if x.cls = .snan then .qnan else x.cls }) fl

/-- VCMP (R82): an all-ones or zero mask. -/
def vCmp (cc : Nat) (a b _c : Num) : LaneVal :=
  let (x, fl) := Num.compare cc a b
  .code (if x then 0xFFFFFFFF else 0) fl

/-- Table 12.8 with R316: reserved bits and codes, unused registers 0; TYPE 1 only where the table marks INT32. -/
def vecOk (w : VecWord) (int rb rc cc : Bool) : Bool :=
  decide (w.rsv = 0) && decide (w.norm.rsvExt = 0) && decide (w.rnd.toNat < 3)
    && (decide (w.type = 0) || (decide (w.type = 1) && int)) && unused cc w.cc && unused rb w.rb && unused rc w.rc

/-- What the 64 lanes give: the core after the draws, the lanes and their flags. f takes the lane's three operands
and its rounding. -/
def runLanes (k : Core) (f : Core → Nat → Core × Nat × Nat) : Core × List Lane × List FlagEvent :=
  (List.range 64).foldl (fun (a : Core × List Lane × List FlagEvent) l =>
    let (k, c, fl) := f a.1 l
    (k, a.2.1 ++ [BitVec.ofNat 32 c], if fl = 0 then a.2.2 else a.2.2 ++ [{ flags := fl, col := l }])) (k, [], [])

/-- The lanes written to a vector register and the flags raised (R88, R89). -/
def State.putLanes (s : State) (c rd : Nat) (t : TileCtx) (r : Core × List Lane × List FlagEvent) : State :=
  (s.setCore c (r.1.setLanes rd 0 r.2.1)).raise c t r.2.2

/-- The FP32 operands of lane l. -/
def Core.fpLane (k : Core) (n l : Nat) : Num := Num.decode .fp32 (k.lane n l).toNat

/-- An FP32 vector instruction: rounds says whether it rounds its result. -/
def fpRun (c : Nat) (w : VecWord) (rounds : Bool) (f : Num → Num → Num → LaneVal) : Run := fun s t =>
  let n := w.norm
  let s := s.noteIgnored t [n.srb.toNat, n.salt.toNat]
  let rnd := (Rnd.ofCode w.rnd.toNat).getD .rne
  let srb := expertVal t n.srb.toNat
  let salt := expertVal t n.salt.toNat
  (s.putLanes c w.rd.toNat t (runLanes (s.core c) fun k l =>
    let (k, r) := if rounds then k.rounding t rnd srb salt l else (k, {})
    let (x, fl) := (f (k.fpLane w.ra.toNat l) (k.fpLane w.rb.toNat l) (k.fpLane w.rc.toNat l)).round r
    (k, x, fl)), 0)

/-- An INT32 or bit-moving vector instruction: no rounding and no flag (R316). -/
def intRun (c : Nat) (w : VecWord) (f : Lane → Lane → Lane → Lane) : Run := fun s t =>
  let s := s.noteIgnored t [w.norm.srb.toNat, w.norm.salt.toNat]
  (s.putLanes c w.rd.toNat t (runLanes (s.core c) fun k l =>
    (k, (f (k.lane w.ra.toNat l) (k.lane w.rb.toNat l) (k.lane w.rc.toNat l)).toNat, 0)), 0)

/-- A vector instruction of both types. -/
def State.vecBoth (s : State) (c : Nat) (w : VecWord) (ok rounds : Bool) (f : Num → Num → Num → LaneVal)
    (g : Lane → Lane → Lane → Lane) : Out :=
  s.issue c (wordsOfExt w.ext) ok (if w.type = 1 then intRun c w g else fpRun c w rounds f)

/-- A vector instruction of TYPE 0 alone. -/
def State.vecFp (s : State) (c : Nat) (w : VecWord) (ok rounds : Bool) (f : Num → Num → Num → LaneVal) : Out :=
  s.issue c (wordsOfExt w.ext) ok (fpRun c w rounds f)

/-- VADD (Table 12.9). -/
def execVadd (c : Nat) (w : VecWord) (s : State) : Out :=
  s.vecBoth c w (vecOk w true true false false) true vAdd fun a b _ => a + b

/-- VSUB. -/
def execVsub (c : Nat) (w : VecWord) (s : State) : Out :=
  s.vecBoth c w (vecOk w true true false false) true vSub fun a b _ => a - b

/-- VMUL. -/
def execVmul (c : Nat) (w : VecWord) (s : State) : Out :=
  s.vecBoth c w (vecOk w true true false false) true vMul fun a b _ => a * b

/-- VFMA: RA x RB + RC, rounded once. -/
def execVfma (c : Nat) (w : VecWord) (s : State) : Out := s.vecFp c w (vecOk w false true true false) true vFma

/-- VMIN (R83). -/
def execVmin (c : Nat) (w : VecWord) (s : State) : Out :=
  s.vecBoth c w (vecOk w true true false false) false (vMinMax 0) fun a b _ => if b.slt a then b else a

/-- VMAX. -/
def execVmax (c : Nat) (w : VecWord) (s : State) : Out :=
  s.vecBoth c w (vecOk w true true false false) false (vMinMax 1) fun a b _ => if a.slt b then b else a

/-- VMINNUM. -/
def execVminnum (c : Nat) (w : VecWord) (s : State) : Out :=
  s.vecFp c w (vecOk w false true false false) false (vMinMax 2)

/-- VMAXNUM. -/
def execVmaxnum (c : Nat) (w : VecWord) (s : State) : Out :=
  s.vecFp c w (vecOk w false true false false) false (vMinMax 3)

/-- VCMP.cc (R82): CC 5 to 15 reserved, UN not for INT32. -/
def execVcmp (c : Nat) (w : VecWord) (s : State) : Out :=
  let cc := w.cc.toNat
  s.vecBoth c w (vecOk w true true false true && decide (cc ≤ 4) && !(decide (w.type = 1) && decide (cc = 4))) false
    (vCmp cc) fun a b _ =>
      if (match cc with | 0 => decide (a = b) | 1 => decide (a ≠ b) | 2 => a.slt b | _ => !b.slt a) then
        BitVec.allOnes 32 else 0

/-- VSEL: RB if the RA lane is nonzero, else RC; bits unchanged. -/
def execVsel (c : Nat) (w : VecWord) (s : State) : Out :=
  s.issue c (wordsOfExt w.ext) (vecOk w true true true false) (intRun c w fun a b x => if a = 0 then x else b)

/-- VEXP2. -/
def execVexp2 (c : Nat) (w : VecWord) (s : State) : Out := s.vecFp c w (vecOk w false false false false) true vExp2

/-- VLOG2. -/
def execVlog2 (c : Nat) (w : VecWord) (s : State) : Out := s.vecFp c w (vecOk w false false false false) true vLog2

/-- VRCP. -/
def execVrcp (c : Nat) (w : VecWord) (s : State) : Out := s.vecFp c w (vecOk w false false false false) true vRcp

/-- VSQRT. -/
def execVsqrt (c : Nat) (w : VecWord) (s : State) : Out := s.vecFp c w (vecOk w false false false false) true vSqrt

/-- VRSQRT. -/
def execVrsqrt (c : Nat) (w : VecWord) (s : State) : Out := s.vecFp c w (vecOk w false false false false) true vRsqrt

/-- VDIV: RA / RB. -/
def execVdiv (c : Nat) (w : VecWord) (s : State) : Out := s.vecFp c w (vecOk w false true false false) true vDiv

/-- VBCAST: bits [31:0] of sRA into every lane. -/
def execVbcast (c : Nat) (w : VecWord) (s : State) : Out :=
  s.issue c (wordsOfExt w.ext) (vecOk w false false false false) fun s t =>
    let x : Lane := ((s.core c).sreg w.ra.toNat).truncate 32
    intRun c w (fun _ _ _ => x) s t

/-- CVT (R87, Table 12.11): a pair that Table 3.7 does not list is illegal. -/
def execCvt (c : Nat) (w : CvtWord) (s : State) : Out :=
  let n := w.norm
  match Fmt.ofCvt w.src.toNat, Fmt.ofCvt w.dst.toNat with
  | some src, some dst =>
    s.issue c (wordsOfExt w.ext) (decide (w.rsv = 0) && decide (n.rsvExt = 0) && decide (w.rnd.toNat < 3)
      && decide (w.rb = 0) && decide (w.rc = 0) && cvtDefined src dst) fun s t =>
      let s := s.noteIgnored t [n.srb.toNat, n.salt.toNat]
      let rnd := (Rnd.ofCode w.rnd.toNat).getD .rne
      (s.putLanes c w.rd.toNat t (runLanes (s.core c) fun k l =>
        let (k, r) := if cvtRounds src dst then k.rounding t rnd (expertVal t n.srb.toNat) (expertVal t n.salt.toNat) l
          else (k, {})
        let (x, fl) := Sys2Proof.Machine.cvt src dst w.sat r ((k.lane w.ra.toNat l).toNat % 2 ^ src.bits)
        (k, x, fl)), 0)
  | _, _ => s.issue c (wordsOfExt w.ext) false fun s _ => (s, 0)

/-- sRA + sext(IMM) of VLD and VST. -/
def Core.vecAddr (k : Core) (w : VMemWord) : Nat := k.here (k.sreg w.ra.toNat + sext20 w.imm).toNat

/-- R317: fields of VLD and VST; FMT 5 to 15 reserved. -/
def vmemOk (w : VMemWord) (rd rb : Bool) : Bool :=
  decide (w.rsv = 0) && decide (w.norm.rsvExt = 0) && (Fmt.ofCode w.fmt.toNat).isSome
    && unused rd w.rd && unused rb w.rb && decide (w.rc = 0)

/-- VLD.fmt: element l of 64 into bits [w - 1:0] of lane l, the upper bits clear (R317). -/
def execVld (c : Nat) (w : VMemWord) (s : State) : Out :=
  let a := (s.core c).vecAddr w
  let b := ((Fmt.ofCode w.fmt.toNat).getD .fp32).bits
  s.issueUnless c (wordsOfExt w.ext) (s.blocked c a (8 * b)) (vmemOk w true false) fun s t =>
    let s := s.noteIgnored t [w.norm.srb.toNat, w.norm.salt.toNat]
    let code := s.ownCode c a (8 * b)
    if code ≠ 0 then (s, code) else
    let (s, bs, d) := s.read (a % 2 ^ 52) (8 * b)
    if d ≠ 0 then (s, d) else
    let x := ofBytes bs
    (s.setCore c ((s.core c).setLanes w.rd.toNat 0
      ((List.range 64).map fun l => BitVec.ofNat 32 (x >>> (b * l) % 2 ^ b))), 0)

/-- VST.fmt: bits [w - 1:0] of each lane as 64 consecutive elements (R317). -/
def execVst (c : Nat) (w : VMemWord) (s : State) : Out :=
  let a := (s.core c).vecAddr w
  let b := ((Fmt.ofCode w.fmt.toNat).getD .fp32).bits
  s.issueUnless c (wordsOfExt w.ext) (s.blocked c a (8 * b) true) (vmemOk w false true) fun s t =>
    let s := s.noteIgnored t [w.norm.srb.toNat, w.norm.salt.toNat]
    let code := s.ownCode c a (8 * b)
    if code ≠ 0 then (s, code) else
    let x := (List.range 64).foldl (fun n l => n + ((s.core c).lane w.rb.toNat l).toNat % 2 ^ b * 2 ^ (b * l)) 0
    (s.write (a % 2 ^ 52) (bytesOf (8 * b) x), 0)

end Sys2Proof.Machine
end

