-- ==== Sys2Proof/Machine/Dispatch.lean ====
section
/-! DEFINITION. One arm for every command of Sys2Proof.Instr: one direct call of its meaning. -/
namespace Sys2Proof.Machine

/-- The effect of a command on everything but the queue. -/
def exec (i : Instr) (s : State) : Host.Outcome State Fault Refusal :=
  match i with
  | .nop c w => Sys2Proof.Machine.execNop c w s
  | .endTile c w => Sys2Proof.Machine.execEnd c w s
  | .add c w => Sys2Proof.Machine.execAdd c w s
  | .sub c w => Sys2Proof.Machine.execSub c w s
  | .and c w => Sys2Proof.Machine.execAnd c w s
  | .or c w => Sys2Proof.Machine.execOr c w s
  | .xor c w => Sys2Proof.Machine.execXor c w s
  | .shl c w => Sys2Proof.Machine.execShl c w s
  | .shr c w => Sys2Proof.Machine.execShr c w s
  | .sra c w => Sys2Proof.Machine.execSra c w s
  | .mul c w => Sys2Proof.Machine.execMul c w s
  | .minu c w => Sys2Proof.Machine.execMinu c w s
  | .maxu c w => Sys2Proof.Machine.execMaxu c w s
  | .li c w => Sys2Proof.Machine.execLi c w s
  | .lis c w => Sys2Proof.Machine.execLis c w s
  | .ld c w => Sys2Proof.Machine.execLd c w s
  | .st c w => Sys2Proof.Machine.execSt c w s
  | .tld c w => Sys2Proof.Machine.execTld c w s
  | .tbase c w => Sys2Proof.Machine.execTbase c w s
  | .beq c w => Sys2Proof.Machine.execBeq c w s
  | .bne c w => Sys2Proof.Machine.execBne c w s
  | .blt c w => Sys2Proof.Machine.execBlt c w s
  | .bge c w => Sys2Proof.Machine.execBge c w s
  | .bltu c w => Sys2Proof.Machine.execBltu c w s
  | .bgeu c w => Sys2Proof.Machine.execBgeu c w s
  | .jmp c w => Sys2Proof.Machine.execJmp c w s
  | .mma c w => Sys2Proof.Machine.execMma c w s
  | .cmma c w => Sys2Proof.Machine.execCmma c w s
  | .mmfExp c w => Sys2Proof.Machine.execMmfExp c w s
  | .mmfRow c w => Sys2Proof.Machine.execMmfRow c w s
  | .stationaryCopy c e => Sys2Proof.Machine.execStationaryCopy c e s
  | .passTimeLimit c e => Sys2Proof.Machine.execPassTimeLimit c e s
  | .engineFault c e cause => Sys2Proof.Machine.execEngineFault c e cause s
  | .vadd c w => Sys2Proof.Machine.execVadd c w s
  | .vsub c w => Sys2Proof.Machine.execVsub c w s
  | .vmul c w => Sys2Proof.Machine.execVmul c w s
  | .vfma c w => Sys2Proof.Machine.execVfma c w s
  | .vmin c w => Sys2Proof.Machine.execVmin c w s
  | .vmax c w => Sys2Proof.Machine.execVmax c w s
  | .vminnum c w => Sys2Proof.Machine.execVminnum c w s
  | .vmaxnum c w => Sys2Proof.Machine.execVmaxnum c w s
  | .vcmp c w => Sys2Proof.Machine.execVcmp c w s
  | .vsel c w => Sys2Proof.Machine.execVsel c w s
  | .vexp2 c w => Sys2Proof.Machine.execVexp2 c w s
  | .vlog2 c w => Sys2Proof.Machine.execVlog2 c w s
  | .vrcp c w => Sys2Proof.Machine.execVrcp c w s
  | .vsqrt c w => Sys2Proof.Machine.execVsqrt c w s
  | .vrsqrt c w => Sys2Proof.Machine.execVrsqrt c w s
  | .vdiv c w => Sys2Proof.Machine.execVdiv c w s
  | .cvt c w => Sys2Proof.Machine.execCvt c w s
  | .vld c w => Sys2Proof.Machine.execVld c w s
  | .vst c w => Sys2Proof.Machine.execVst c w s
  | .vbcast c w => Sys2Proof.Machine.execVbcast c w s
  | .chainLd c w => Sys2Proof.Machine.execChainLd c w s
  | .epi c w => Sys2Proof.Machine.execEpi c w s
  | .kva c w => Sys2Proof.Machine.execKva c w s
  | .mov c w => Sys2Proof.Machine.execMov c w s
  | .movSig c w => Sys2Proof.Machine.execMovSig c w s
  | .movS c w => Sys2Proof.Machine.execMovS c w s
  | .movG c w => Sys2Proof.Machine.execMovG c w s
  | .atomAdd c w => Sys2Proof.Machine.execAtomAdd c w s
  | .atomFetchAdd c w => Sys2Proof.Machine.execAtomFetchAdd c w s
  | .atomSwap c w => Sys2Proof.Machine.execAtomSwap c w s
  | .atomCas c w => Sys2Proof.Machine.execAtomCas c w s
  | .scatter c w => Sys2Proof.Machine.execScatter c w s
  | .pageTrunc c w => Sys2Proof.Machine.execPageTrunc c w s
  | .attn c w => Sys2Proof.Machine.execAttn c w s
  | .attnW c w => Sys2Proof.Machine.execAttnW c w s
  | .attnMrg c w => Sys2Proof.Machine.execAttnMrg c w s
  | .walkValidation c w => Sys2Proof.Machine.execWalkValidation c w s
  | .colRs c w => Sys2Proof.Machine.execColRs c w s
  | .colAr c w => Sys2Proof.Machine.execColAr c w s
  | .colAg c w => Sys2Proof.Machine.execColAg c w s
  | .colA2a c w => Sys2Proof.Machine.execColA2a c w s
  | .fence c w => Sys2Proof.Machine.execFence c w s
  | .wait c w => Sys2Proof.Machine.execWait c w s
  | .waitI c w => Sys2Proof.Machine.execWaitI c w s
  | .signal c w => Sys2Proof.Machine.execSignal c w s
  | .waitWake c => Sys2Proof.Machine.execWaitWake c s
  | .waitPoll c => Sys2Proof.Machine.execWaitPoll c s
  | .waitTimeout c => Sys2Proof.Machine.execWaitTimeout c s
  | .taskDispatch r t => Sys2Proof.Machine.execTaskDispatch r t s
  | .startSignalMet r t => Sys2Proof.Machine.execStartSignalMet r t s
  | .tilePull c r t => Sys2Proof.Machine.execTilePull c r t s
  | .splitKCombine r t q => Sys2Proof.Machine.execSplitKCombine r t q s
  | .taskComplete r t => Sys2Proof.Machine.execTaskComplete r t s
  | .requestComplete r => Sys2Proof.Machine.execRequestComplete r s
  | .completionEntryWrite qpn => Sys2Proof.Machine.execCompletionEntryWrite qpn s
  | .planPoint die => Sys2Proof.Machine.execPlanPoint die s
  | .claim die ward n => Sys2Proof.Machine.execClaim die ward n s
  | .preemptionRequest g => Sys2Proof.Machine.execPreemptionRequest g s
  | .coreStopped c => Sys2Proof.Machine.execCoreStopped c s
  | .saveImageWritten c => Sys2Proof.Machine.execSaveImageWritten c s
  | .clusterClearing g => Sys2Proof.Machine.execClusterClearing g s
  | .taskResume c img => Sys2Proof.Machine.execTaskResume c img s
  | .stepBoundary => Sys2Proof.Machine.execStepBoundary s
  | .stepSyncEdge => Sys2Proof.Machine.execStepSyncEdge s
  | .stepBoundarySeen g => Sys2Proof.Machine.execStepBoundarySeen g s
  | .read p upsets => Sys2Proof.Machine.execRead p upsets s
  | .write p upsets => Sys2Proof.Machine.execWrite p upsets s
  | .writeSignal p => Sys2Proof.Machine.execWriteSignal p s
  | .atomic p => Sys2Proof.Machine.execAtomic p s
  | .readData p => Sys2Proof.Machine.execReadData p s
  | .ack p => Sys2Proof.Machine.execAck p s
  | .atomicData p => Sys2Proof.Machine.execAtomicData p s
  | .nak p => Sys2Proof.Machine.execNak p s
  | .dieLinkCrcRetry link => Sys2Proof.Machine.execDieLinkCrcRetry link s
  | .dieLinkDown link => Sys2Proof.Machine.execDieLinkDown link s
  | .dieLinkFailed link => Sys2Proof.Machine.execDieLinkFailed link s
  | .dataFlit port f => Sys2Proof.Machine.execDataFlit port f s
  | .retryControlFlit f seq => Sys2Proof.Machine.execRetryControlFlit f seq s
  | .retireControlFlit f => Sys2Proof.Machine.execRetireControlFlit f s
  | .leaveControlFlit f => Sys2Proof.Machine.execLeaveControlFlit f s
  | .hingeLinkDown port => Sys2Proof.Machine.execHingeLinkDown port s
  | .hingeRetrainDone port => Sys2Proof.Machine.execHingeRetrainDone port s
  | .hingeRetrainTimeout port => Sys2Proof.Machine.execHingeRetrainTimeout port s
  | .hingeErrorWindowEnd port => Sys2Proof.Machine.execHingeErrorWindowEnd port s
  | .portAnnouncement port a => Sys2Proof.Machine.execPortAnnouncement port a s
  | .routeChangeRelease dest => Sys2Proof.Machine.execRouteChangeRelease dest s
  | .timeExchange port => Sys2Proof.Machine.execTimeExchange port s
  | .timeFlit port f => Sys2Proof.Machine.execTimeFlit port f s
  | .upstreamTimeout => Sys2Proof.Machine.execUpstreamTimeout s
  | .peerSignalDetected port => Sys2Proof.Machine.execPeerSignalDetected port s
  | .hingeTrainingDone port node peerPort => Sys2Proof.Machine.execHingeTrainingDone port node peerPort s
  | .hingeTrainingTimeout port => Sys2Proof.Machine.execHingeTrainingTimeout port s
  | .groupAct qpn => Sys2Proof.Machine.execGroupAct qpn s
  | .groupConfirm g port agrees => Sys2Proof.Machine.execGroupConfirm g port agrees s
  | .groupActTimeout g => Sys2Proof.Machine.execGroupActTimeout g s
  | .groupDeact qpn => Sys2Proof.Machine.execGroupDeact qpn s
  | .groupReleased g => Sys2Proof.Machine.execGroupReleased g s
  | .level0Reduction g optag chunk => Sys2Proof.Machine.execLevel0Reduction g optag chunk s
  | .slotClaimGranted g axis => Sys2Proof.Machine.execSlotClaimGranted g axis s
  | .staging g optag chunk => Sys2Proof.Machine.execStaging g optag chunk s
  | .chunkReady p => Sys2Proof.Machine.execChunkReady p s
  | .reduceData p => Sys2Proof.Machine.execReduceData p s
  | .gatherData p => Sys2Proof.Machine.execGatherData p s
  | .allToAllData p => Sys2Proof.Machine.execAllToAllData p s
  | .operationDone g optag => Sys2Proof.Machine.execOperationDone g optag s
  | .opLimitExpiry g optag => Sys2Proof.Machine.execOpLimitExpiry g optag s
  | .pageAbsentReport r => Sys2Proof.Machine.execPageAbsentReport r s
  | .recomputeDone r => Sys2Proof.Machine.execRecomputeDone r s
  | .exportWriteAcknowledged b page => Sys2Proof.Machine.execExportWriteAcknowledged b page s
  | .markerAcknowledged b layer => Sys2Proof.Machine.execMarkerAcknowledged b layer s
  | .grantTail qpn slot tail => Sys2Proof.Machine.execGrantTail qpn slot tail s
  | .creditWaitExpiry b => Sys2Proof.Machine.execCreditWaitExpiry b s
  | .psnSequenceErrorNak qpn => Sys2Proof.Machine.execPsnSequenceErrorNak qpn s
  | .rnrNak qpn => Sys2Proof.Machine.execRnrNak qpn s
  | .rnrTimerExpiry qpn => Sys2Proof.Machine.execRnrTimerExpiry qpn s
  | .ackTimeout qpn => Sys2Proof.Machine.execAckTimeout qpn s
  | .retriesExhausted qpn => Sys2Proof.Machine.execRetriesExhausted qpn s
  | .remoteAccessErrorNak qpn => Sys2Proof.Machine.execRemoteAccessErrorNak qpn s
  | .remoteOperationalErrorNak qpn => Sys2Proof.Machine.execRemoteOperationalErrorNak qpn s
  | .exportLinkDown port => Sys2Proof.Machine.execExportLinkDown port s
  | .exportRetrainTimeout port => Sys2Proof.Machine.execExportRetrainTimeout port s
  | .exportFecWindowEnd port uncorrectable => Sys2Proof.Machine.execExportFecWindowEnd port uncorrectable s
  | .inboundRdmaWrite f gid rkey addr data => Sys2Proof.Machine.execInboundRdmaWrite f gid rkey addr data s
  | .inboundRdmaRead f gid rkey addr len => Sys2Proof.Machine.execInboundRdmaRead f gid rkey addr len s
  | .rdmaWriteWithImmediate qpn => Sys2Proof.Machine.execRdmaWriteWithImmediate qpn s
  | .rdmaReadResponse data => Sys2Proof.Machine.execRdmaReadResponse data s
  | .sqTail qpn v => Sys2Proof.Machine.execSqTail qpn v s
  | .cqHead qpn v => Sys2Proof.Machine.execCqHead qpn v s
  | .submissionNop qpn => Sys2Proof.Machine.execSubmissionNop qpn s
  | .run qpn => Sys2Proof.Machine.execRun qpn s
  | .ceMarkedPacket qpn => Sys2Proof.Machine.execCeMarkedPacket qpn s
  | .cnp qpn => Sys2Proof.Machine.execCnp qpn s
  | .rateRecoveryPeriodEnd qpn => Sys2Proof.Machine.execRateRecoveryPeriodEnd qpn s
  | .pfcPauseFrame port prio pause => Sys2Proof.Machine.execPfcPauseFrame port prio pause s
  | .hostLinkDown => Sys2Proof.Machine.execHostLinkDown s
  | .hostLinkUp => Sys2Proof.Machine.execHostLinkUp s
  | .qpCreate => Sys2Proof.Machine.execQpCreate s
  | .qpDestroy => Sys2Proof.Machine.execQpDestroy s
  | .queueCreate => Sys2Proof.Machine.execQueueCreate s
  | .queueDestroy => Sys2Proof.Machine.execQueueDestroy s
  | .map => Sys2Proof.Machine.execMap s
  | .load => Sys2Proof.Machine.execLoad s
  | .unmap => Sys2Proof.Machine.execUnmap s
  | .protect => Sys2Proof.Machine.execProtect s
  | .mappingCutoverDone ward => Sys2Proof.Machine.execMappingCutoverDone ward s
  | .lend => Sys2Proof.Machine.execLend s
  | .unlend => Sys2Proof.Machine.execUnlend s
  | .borrow => Sys2Proof.Machine.execBorrow s
  | .windowQuery src window ward size writable => Sys2Proof.Machine.execWindowQuery src window ward size writable s
  | .csrWrite => Sys2Proof.Machine.execCsrWrite s
  | .netCfg => Sys2Proof.Machine.execNetCfg s
  | .wardCreate => Sys2Proof.Machine.execWardCreate s
  | .wardDelete => Sys2Proof.Machine.execWardDelete s
  | .wardPolicy => Sys2Proof.Machine.execWardPolicy s
  | .ownerSet => Sys2Proof.Machine.execOwnerSet s
  | .fwUpdate => Sys2Proof.Machine.execFwUpdate s
  | .quote => Sys2Proof.Machine.execQuote s
  | .scrubDue pc => Sys2Proof.Machine.execScrubDue pc s
  | .patrolScrubRead pc upsets => Sys2Proof.Machine.execPatrolScrubRead pc upsets s
  | .translationCopyRebuilt stack => Sys2Proof.Machine.execTranslationCopyRebuilt stack s
  | .controlCoreFault g cause => Sys2Proof.Machine.execControlCoreFault g cause s
  | .estimationWindowEnd counts temps => Sys2Proof.Machine.execEstimationWindowEnd counts temps s
  | .budgetsInForce => Sys2Proof.Machine.execBudgetsInForce s
  | .frequencyStepDone g => Sys2Proof.Machine.execFrequencyStepDone g s
  | .avsbusResponse die ok settled => Sys2Proof.Machine.execAvsbusResponse die ok settled s
  | .avsbusRetryTimer die => Sys2Proof.Machine.execAvsbusRetryTimer die s
  | .droopDetected g => Sys2Proof.Machine.execDroopDetected g s
  | .droopStretchEnd g => Sys2Proof.Machine.execDroopStretchEnd g s
  | .droopRecoveryEnd g => Sys2Proof.Machine.execDroopRecoveryEnd g s
  | .thermalTrip sensor reading => Sys2Proof.Machine.execThermalTrip sensor reading s
  | .pwrCapWrite req v => Sys2Proof.Machine.execPwrCapWrite req v s
  | .troubleLogWrite => Sys2Proof.Machine.execTroubleLogWrite s
  | .ceLimitWindowEnd pc => Sys2Proof.Machine.execCeLimitWindowEnd pc s
  | .eventNotice => Sys2Proof.Machine.execEventNotice s
  | .operatingSecondEnd => Sys2Proof.Machine.execOperatingSecondEnd s
  | .historyPeriod => Sys2Proof.Machine.execHistoryPeriod s
  | .journalAppend programOk => Sys2Proof.Machine.execJournalAppend programOk s
  | .blockEraseDone ok => Sys2Proof.Machine.execBlockEraseDone ok s
  | .append req => Sys2Proof.Machine.execAppend req s
  | .shutdown req => Sys2Proof.Machine.execShutdown req s
  | .powerOn order => Sys2Proof.Machine.execPowerOn order s
  | .pwrGoodFall => Sys2Proof.Machine.execPwrGoodFall s
  | .resetNAssert => Sys2Proof.Machine.execResetNAssert s
  | .resetNRelease => Sys2Proof.Machine.execResetNRelease s
  | .clockDetected => Sys2Proof.Machine.execClockDetected s
  | .bootRom puf => Sys2Proof.Machine.execBootRom puf s
  | .deviceControllerUp vddcAnswers => Sys2Proof.Machine.execDeviceControllerUp vddcAnswers s
  | .journalRecovery => Sys2Proof.Machine.execJournalRecovery s
  | .hbmTraining failed => Sys2Proof.Machine.execHbmTraining failed s
  | .selfTest result => Sys2Proof.Machine.execSelfTest result s
  | .linkTraining dieLinksFailed hinge hostUp => Sys2Proof.Machine.execLinkTraining dieLinksFailed hinge hostUp s
  | .readyReport => Sys2Proof.Machine.execReadyReport s
  | .startStepTimeout => Sys2Proof.Machine.execStartStepTimeout s
  | .orderlyRestart req => Sys2Proof.Machine.execOrderlyRestart req s
  | .immediateRestart req => Sys2Proof.Machine.execImmediateRestart req s
  | .keywayLoad req v => Sys2Proof.Machine.execKeywayLoad req v s
  | .partnerEnable req p v => Sys2Proof.Machine.execPartnerEnable req p v s
  | .partnerDisable req p v => Sys2Proof.Machine.execPartnerDisable req p v s
  | .exportPortEnable port => Sys2Proof.Machine.execExportPortEnable port s
  | .connect v => Sys2Proof.Machine.execConnect v s
  | .drop v => Sys2Proof.Machine.execDrop v s
  | .sysTimeOffsetWrite req v => Sys2Proof.Machine.execSysTimeOffsetWrite req v s
  | .registerWrite req offset v => Sys2Proof.Machine.execRegisterWrite req offset v s
  | .setPointer data => Sys2Proof.Machine.execSetPointer data s
  | .writeWords data => Sys2Proof.Machine.execWriteWords data s
  | .privateRead => Sys2Proof.Machine.execPrivateRead s
  | .rstdaa => Sys2Proof.Machine.execRstdaa s
  | .setdasa addr => Sys2Proof.Machine.execSetdasa addr s
  | .entdaa addr => Sys2Proof.Machine.execEntdaa addr s
  | .enec events => Sys2Proof.Machine.execEnec events s
  | .disec events => Sys2Proof.Machine.execDisec events s
  | .getpid => Sys2Proof.Machine.execGetpid s
  | .getbcr => Sys2Proof.Machine.execGetbcr s
  | .getdcr => Sys2Proof.Machine.execGetdcr s
  | .getstatus => Sys2Proof.Machine.execGetstatus s
  | .getmxds => Sys2Proof.Machine.execGetmxds s
  | .hotJoin => Sys2Proof.Machine.execHotJoin s
  | .bypass => Sys2Proof.Machine.execBypass s
  | .idcode => Sys2Proof.Machine.execIdcode s
  | .samplePreload data => Sys2Proof.Machine.execSamplePreload data s
  | .extest pins => Sys2Proof.Machine.execExtest pins s
  | .extestPulse => Sys2Proof.Machine.execExtestPulse s
  | .extestTrain => Sys2Proof.Machine.execExtestTrain s
  | .clamp => Sys2Proof.Machine.execClamp s
  | .highz => Sys2Proof.Machine.execHighz s
  | .tapReset viaTrst => Sys2Proof.Machine.execTapReset viaTrst s
  | .dieLinkRetrainDone link => Sys2Proof.Machine.execDieLinkRetrainDone link s
  | .exportLinkUp port => Sys2Proof.Machine.execExportLinkUp port s
  | .hostRdmaWriteAcknowledged qpn => Sys2Proof.Machine.execHostRdmaWriteAcknowledged qpn s
  | .waitLimitExpiry c => Sys2Proof.Machine.execWaitLimitExpiry c s
  | .slotProgramDone readBackOk => Sys2Proof.Machine.execSlotProgramDone readBackOk s
  | .windowQueryAnswer lender window ok => Sys2Proof.Machine.execWindowQueryAnswer lender window ok s
  | .descriptorExchange port ward w0 w1 => Sys2Proof.Machine.execDescriptorExchange port ward w0 w1 s

end Sys2Proof.Machine
end

