-- ==== Sys2Proof/Safety.lean ====
section
/-! DEFINITION. What counts as a safe state, in the terms the statements use. -/
namespace Sys2Proof.Machine

/-- The memory's canonical form: addresses strictly rising and no entry equal to what an unlisted address reads as. -/
abbrev Memory.wf (m : List (Nat × Byte)) : Prop := Smap.wf 0 m = true

/-- The register map's canonical form: keys strictly rising and no entry equal to a field's reset value. -/
abbrev Registers.wf (m : List (Nat × Nat)) : Prop := Smap.wf 0 m = true

/-- The canonical form of the marks of damaged words. -/
abbrev Marks.wf (m : List (Nat × WordMark)) : Prop := Smap.wf {} m = true

/-- Register map, memory and marks are in canonical form. -/
structure State.Wf (s : State) : Prop where
  csr : Registers.wf s.csr
  mem : Memory.wf s.mem
  marks : Marks.wf s.marks

/-- No stored word is damaged and no pseudo-channel is retired. -/
structure State.Clean (s : State) : Prop where
  marks : s.marks = []
  live : ∀ p < 128, s.live p = true

/-- Core c runs tile t and may issue the instruction of n words at its program counter: no register of it waits for an
ATOM's old value, and its words are fetched without a fault (R44, R47, R311, R322). -/
structure State.Issues (s : State) (c n : Nat) (t : TileCtx) : Prop where
  core : c < s.cores.length
  tile : s.issuing c = some t
  free : s.regHeld c t = false
  fetch : s.fetch c t n = (s, 0)

/-- n bytes at a global address that core c may read, or write, at once: a multiple of n, in its own memory, no block of
them held against it, no word of them damaged (Table 12.3, R48, Table 9.2). -/
structure State.Usable (s : State) (c a n : Nat) (write : Bool := false) : Prop where
  aligned : a % n = 0
  own : s.own c a n = true
  free : s.blocked c a n write = false
  sound : s.sound (a % 2 ^ 52) n = true

/-- Table 12.3: the operations RD := RA op B, written on integers. -/
def aluTable : List ((Nat → ScalarWord → Instr) × (Word → Word → Word)) :=
  [(.add, fun a b => BitVec.ofNat 64 (a.toNat + b.toNat)), (.sub, fun a b => BitVec.ofInt 64 (a.toInt - b.toInt)),
   (.and, fun a b => a &&& b), (.or, fun a b => a ||| b), (.xor, fun a b => a ^^^ b),
   (.shl, fun a b => BitVec.ofNat 64 (a.toNat * 2 ^ (b.extractLsb' 0 6).toNat)),
   (.shr, fun a b => BitVec.ofNat 64 (a.toNat / 2 ^ (b.extractLsb' 0 6).toNat)),
   (.sra, fun a b => BitVec.ofInt 64 (a.toInt / 2 ^ (b.extractLsb' 0 6).toNat)),
   (.mul, fun a b => BitVec.ofNat 64 (a.toNat * b.toNat)),
   (.minu, fun a b => BitVec.ofNat 64 (min a.toNat b.toNat)), (.maxu, fun a b => BitVec.ofNat 64 (max a.toNat b.toNat))]

/-- Table 12.3: the branches and their conditions; BLT and BGE compare signed. -/
def branchTable : List ((Nat → ScalarWord → Instr) × (Word → Word → Bool)) :=
  [(.beq, fun a b => decide (a = b)), (.bne, fun a b => decide (a ≠ b)), (.blt, fun a b => decide (a.toInt < b.toInt)),
   (.bge, fun a b => decide (b.toInt ≤ a.toInt)), (.bltu, fun a b => decide (a.toNat < b.toNat)),
   (.bgeu, fun a b => decide (b.toNat ≤ a.toNat))]

/-- Expert fields that the instruction does not ignore: the task is unlocked, or all of them are 0 (R9). -/
abbrev TileCtx.Heeds (t : TileCtx) (fields : List Nat) : Prop := t.unlocked = true ∨ ∀ x ∈ fields, x = 0

/-- Tables 12.8 and 12.9: the FP32 vector instructions with their decode checks, whether they round, and what a lane
forms before its rounding. -/
def vectorTable : List ((Nat → VecWord → Instr) × (VecWord → Bool) × Bool × (Num → Num → Num → LaneVal)) :=
  [(.vadd, fun w => vecOk w true true false false, true, vAdd), (.vsub, fun w => vecOk w true true false false, true, vSub),
   (.vmul, fun w => vecOk w true true false false, true, vMul), (.vfma, fun w => vecOk w false true true false, true, vFma),
   (.vmin, fun w => vecOk w true true false false, false, vMinMax 0),
   (.vmax, fun w => vecOk w true true false false, false, vMinMax 1),
   (.vminnum, fun w => vecOk w false true false false, false, vMinMax 2),
   (.vmaxnum, fun w => vecOk w false true false false, false, vMinMax 3),
   (.vexp2, fun w => vecOk w false false false false, true, vExp2), (.vlog2, fun w => vecOk w false false false false, true, vLog2),
   (.vrcp, fun w => vecOk w false false false false, true, vRcp), (.vsqrt, fun w => vecOk w false false false false, true, vSqrt),
   (.vrsqrt, fun w => vecOk w false false false false, true, vRsqrt), (.vdiv, fun w => vecOk w false true false false, true, vDiv)]

/-- Tables 12.8 and 12.9: the INT32 forms, on signed 32-bit integers. -/
def intVectorTable : List ((Nat → VecWord → Instr) × (Int → Int → Int)) :=
  [(.vadd, fun a b => a + b), (.vsub, fun a b => a - b), (.vmul, fun a b => a * b), (.vmin, min), (.vmax, max)]

/-- Every core but c, and everything besides the cores, the register map and the free values, is as before. -/
structure State.OnlyCore (s u : State) (c : Nat) : Prop where
  others : ∀ j, j ≠ c → u.core j = s.core j
  rest : u = { s with cores := u.cores, csr := u.csr, freeCount := u.freeCount }

/-- The vector registers but rd are as before. -/
abbrev Core.KeepsLanes (k k' : Core) (rd : Nat) : Prop := ∀ m l, m ≠ rd → l < 64 → k'.lane m l = k.lane m l

/-- The operations of ATOM (Table 12.16a): the new value from the old one, the operand and the compare value. -/
def atomTable : List ((Nat → MoveWord → Instr) × Nat × (Nat → Nat → Nat → Nat)) :=
  [(.atomAdd, 0, fun old x _ => (old + x) % 2 ^ 64), (.atomFetchAdd, 1, fun old x _ => (old + x) % 2 ^ 64),
   (.atomSwap, 2, fun _ x _ => x), (.atomCas, 3, fun old x y => if old = y then x else old)]

end Sys2Proof.Machine
end

