-- ==== Sys2Proof/WellFormed.lean ====
section
/-! DEFINITION. When a command is well formed: its unit numbers lie in the ranges of the spec (R11, R21, R233, R256,
Table 16.4), the fields of an absent extension word are 0 (R306), AOP is the one the command names (Table 12.16a), its
packets have the fields of Table 10.4 and the data that LEN states, and its lists the lengths of what they list. A
command that is not well formed names nothing on the device; what it does is nowhere relied on. -/
namespace Sys2Proof

/-- Table 10.4: field widths, LEN at most 64, and LEN x 64 data bytes (none with a READ, log entry 9). -/
def Packet.wf (p : Packet) : Bool :=
  decide (p.dest < 4096) && decide (p.src < 4096) && decide (p.op < 32) && decide (p.ward < 512) && decide (p.dir < 8)
    && decide (p.pseq < 65536) && decide (p.len ≤ 64) && decide (p.addr < 2 ^ 52)
    && decide (p.data.length = if p.op = 0 then 0 else p.len * 64)

/-- Table 10.3: field widths, a payload of 236 bytes, and wrong symbols among the flit's 128, each named once. -/
def Flit.wf (f : Flit) : Bool :=
  decide (f.typ < 4) && decide (f.vc < 8) && decide (f.seq < 1024) && decide (f.ack < 1024) && decide (f.crvc < 8) && decide (f.crn < 16)
    && decide (f.payload.length = 236) && f.errors.all (fun e => decide (e.1 < 128) && decide (e.2 ≠ 0))
    && decide ((f.errors.map (·.1)).Nodup)

/-- Port numbers and the field widths of Table 10.3. -/
def CtlFlit.wf (f : CtlFlit) : Bool :=
  decide (f.port < 6) && decide (f.ack < 1024) && decide (f.crvc < 8) && decide (f.crn < 16)

/-- Node IDs of 12 bits and hop counts of 5 (Table 10.10). -/
def TimeFlit.wf (f : TimeFlit) : Bool := decide (f.root < 4096) && decide (f.hops < 32)

/-- Queue pair and Ethernet port numbers. -/
def InFrame.wf (f : InFrame) : Bool :=
  decide (f.qpn < 16384) &&
    match f.fit with
    | .frame port => decide (port < 5)
    | _ => true

/-- Node and port numbers. -/
def Announcement.wf (a : Announcement) : Bool := decide (a.node < 4096) && decide (a.port < 6)

/-- Disturbances name 64-bit words. -/
def upsetsWf (us : List Upset) : Bool := us.all fun u => decide (u.addr % 8 = 0)

/-- Units that self-test may find failed (R430). -/
def SelfTest.wf (t : SelfTest) : Bool :=
  t.failedCores.all (fun c => decide (c < 192)) && t.failedClusters.all (fun g => decide (g < 24))
    && t.failedSlots.all (fun n => decide (n < 4096))

/-! R306: where EXT is 0, every field of the extension word reads as 0. -/

/-- R306 for MmfWord. -/
def MmfWord.wf (w : MmfWord) : Bool :=
  w.ext || (decide (w.form = 0) && decide (w.rsvExt = 0) && decide (w.dt = 0) && decide (w.darea = 0)
    && decide (w.refBuf = 0))

/-- R306 for VecWord. -/
def VecWord.wf (w : VecWord) : Bool :=
  w.ext || (decide (w.srb = 0) && decide (w.salt = 0) && decide (w.rsvExt = 0))

/-- R306 for CvtWord. -/
def CvtWord.wf (w : CvtWord) : Bool :=
  w.ext || (decide (w.srb = 0) && decide (w.salt = 0) && decide (w.rsvExt = 0))

/-- R306 for VMemWord. -/
def VMemWord.wf (w : VMemWord) : Bool :=
  w.ext || (decide (w.srb = 0) && decide (w.salt = 0) && decide (w.rsvExt = 0))

/-- R306 for EpiWord. -/
def EpiWord.wf (w : EpiWord) : Bool :=
  w.ext || (decide (w.srb = 0) && decide (w.salt = 0) && decide (w.qscale = 0) && decide (w.atile = 0)
    && decide (w.atile2 = 0) && decide (w.defer = 0) && decide (w.twopass = 0) && decide (w.npart = 0)
    && decide (w.send = 0) && decide (w.layout = 0) && decide (w.eng = 0) && decide (w.dcols = 0)
    && decide (w.rsvExt = 0))

/-- R306 for KvaWord. -/
def KvaWord.wf (w : KvaWord) : Bool :=
  w.ext || (decide (w.srb = 0) && decide (w.salt = 0) && decide (w.rsvExt = 0))

/-- R306 for AttnWord. -/
def AttnWord.wf (w : AttnWord) : Bool :=
  w.ext || (decide (w.srb = 0) && decide (w.salt = 0) && !w.bias && decide (w.send = 0) && decide (w.npart = 0)
    && decide (w.rsvExt = 0))

/-- Whether a command is well formed. -/
def Instr.wf : Instr → Bool
  | .nop c _ => decide (c < 192)
  | .endTile c _ => decide (c < 192)
  | .add c _ => decide (c < 192)
  | .sub c _ => decide (c < 192)
  | .and c _ => decide (c < 192)
  | .or c _ => decide (c < 192)
  | .xor c _ => decide (c < 192)
  | .shl c _ => decide (c < 192)
  | .shr c _ => decide (c < 192)
  | .sra c _ => decide (c < 192)
  | .mul c _ => decide (c < 192)
  | .minu c _ => decide (c < 192)
  | .maxu c _ => decide (c < 192)
  | .li c _ => decide (c < 192)
  | .lis c _ => decide (c < 192)
  | .ld c _ => decide (c < 192)
  | .st c _ => decide (c < 192)
  | .tld c _ => decide (c < 192)
  | .tbase c _ => decide (c < 192)
  | .beq c _ => decide (c < 192)
  | .bne c _ => decide (c < 192)
  | .blt c _ => decide (c < 192)
  | .bge c _ => decide (c < 192)
  | .bltu c _ => decide (c < 192)
  | .bgeu c _ => decide (c < 192)
  | .jmp c _ => decide (c < 192)
  | .mma c _ => decide (c < 192)
  | .cmma c _ => decide (c < 192)
  | .mmfExp c w => decide (c < 192) && w.wf
  | .mmfRow c w => decide (c < 192) && w.wf
  | .stationaryCopy c e => decide (c < 192) && decide (e < 4)
  | .passTimeLimit c e => decide (c < 192) && decide (e < 4)
  | .engineFault c e _ => decide (c < 192) && decide (e < 4)
  | .vadd c w => decide (c < 192) && w.wf
  | .vsub c w => decide (c < 192) && w.wf
  | .vmul c w => decide (c < 192) && w.wf
  | .vfma c w => decide (c < 192) && w.wf
  | .vmin c w => decide (c < 192) && w.wf
  | .vmax c w => decide (c < 192) && w.wf
  | .vminnum c w => decide (c < 192) && w.wf
  | .vmaxnum c w => decide (c < 192) && w.wf
  | .vcmp c w => decide (c < 192) && w.wf
  | .vsel c w => decide (c < 192) && w.wf
  | .vexp2 c w => decide (c < 192) && w.wf
  | .vlog2 c w => decide (c < 192) && w.wf
  | .vrcp c w => decide (c < 192) && w.wf
  | .vsqrt c w => decide (c < 192) && w.wf
  | .vrsqrt c w => decide (c < 192) && w.wf
  | .vdiv c w => decide (c < 192) && w.wf
  | .cvt c w => decide (c < 192) && w.wf
  | .vld c w => decide (c < 192) && w.wf
  | .vst c w => decide (c < 192) && w.wf
  | .vbcast c w => decide (c < 192) && w.wf
  | .chainLd c _ => decide (c < 192)
  | .epi c w => decide (c < 192) && w.wf
  | .kva c w => decide (c < 192) && w.wf
  | .mov c _ => decide (c < 192)
  | .movSig c _ => decide (c < 192)
  | .movS c _ => decide (c < 192)
  | .movG c _ => decide (c < 192)
  | .atomAdd c w => decide (c < 192) && decide (w.aop = 0)
  | .atomFetchAdd c w => decide (c < 192) && decide (w.aop = 1)
  | .atomSwap c w => decide (c < 192) && decide (w.aop = 2)
  | .atomCas c w => decide (c < 192) && decide (w.aop = 3)
  | .scatter c _ => decide (c < 192)
  | .pageTrunc c _ => decide (c < 192)
  | .attn c w => decide (c < 192) && w.wf
  | .attnW c w => decide (c < 192) && w.wf
  | .attnMrg c w => decide (c < 192) && w.wf
  | .walkValidation c w => decide (c < 192) && w.wf
  | .colRs c _ => decide (c < 192)
  | .colAr c _ => decide (c < 192)
  | .colAg c _ => decide (c < 192)
  | .colA2a c _ => decide (c < 192)
  | .fence c _ => decide (c < 192)
  | .wait c _ => decide (c < 192)
  | .waitI c _ => decide (c < 192)
  | .signal c _ => decide (c < 192)
  | .waitWake c => decide (c < 192)
  | .waitPoll c => decide (c < 192)
  | .waitTimeout c => decide (c < 192)
  | .taskDispatch _ _ => true
  | .startSignalMet _ _ => true
  | .tilePull c _ _ => decide (c < 192)
  | .splitKCombine _ _ _ => true
  | .taskComplete _ _ => true
  | .requestComplete _ => true
  | .completionEntryWrite qpn => decide (qpn < 16384)
  | .planPoint die => decide (die < 4)
  | .claim die ward _ => decide (die < 4) && decide (ward < 512)
  | .preemptionRequest g => decide (g < 24)
  | .coreStopped c => decide (c < 192)
  | .saveImageWritten c => decide (c < 192)
  | .clusterClearing g => decide (g < 24)
  | .taskResume c _ => decide (c < 192)
  | .stepBoundary => true
  | .stepSyncEdge => true
  | .stepBoundarySeen g => decide (g < 24)
  | .read p upsets => p.wf && upsetsWf upsets
  | .write p upsets => p.wf && upsetsWf upsets
  | .writeSignal p => p.wf
  | .atomic p => p.wf
  | .readData p => p.wf
  | .ack p => p.wf
  | .atomicData p => p.wf
  | .nak p => p.wf
  | .dieLinkCrcRetry link => decide (link < 8)
  | .dieLinkDown link => decide (link < 8)
  | .dieLinkFailed link => decide (link < 8)
  | .dataFlit port f => decide (port < 6) && f.wf
  | .retryControlFlit f seq => f.wf && decide (seq < 1024)
  | .retireControlFlit f => f.wf
  | .leaveControlFlit f => f.wf
  | .hingeLinkDown port => decide (port < 6)
  | .hingeRetrainDone port => decide (port < 6)
  | .hingeRetrainTimeout port => decide (port < 6)
  | .hingeErrorWindowEnd port => decide (port < 6)
  | .portAnnouncement port a => decide (port < 6) && a.wf
  | .routeChangeRelease dest => decide (dest < 4096)
  | .timeExchange port => decide (port < 6)
  | .timeFlit port f => decide (port < 6) && f.wf
  | .upstreamTimeout => true
  | .peerSignalDetected port => decide (port < 6)
  | .hingeTrainingDone port node peerPort => decide (port < 6) && decide (node < 4096) && decide (peerPort < 6)
  | .hingeTrainingTimeout port => decide (port < 6)
  | .groupAct qpn => decide (qpn < 16384)
  | .groupConfirm g port _ => decide (g < 64) && decide (port < 6)
  | .groupActTimeout g => decide (g < 64)
  | .groupDeact qpn => decide (qpn < 16384)
  | .groupReleased g => decide (g < 64)
  | .level0Reduction g _ _ => decide (g < 64)
  | .slotClaimGranted g axis => decide (g < 64) && decide (axis < 3)
  | .staging g _ _ => decide (g < 64)
  | .chunkReady p => p.wf
  | .reduceData p => p.wf
  | .gatherData p => p.wf
  | .allToAllData p => p.wf
  | .operationDone g _ => decide (g < 64)
  | .opLimitExpiry g _ => decide (g < 64)
  | .pageAbsentReport _ => true
  | .recomputeDone _ => true
  | .exportWriteAcknowledged _ _ => true
  | .markerAcknowledged _ _ => true
  | .grantTail qpn slot _ => decide (qpn < 16384) && decide (slot < 256)
  | .creditWaitExpiry _ => true
  | .psnSequenceErrorNak qpn => decide (qpn < 16384)
  | .rnrNak qpn => decide (qpn < 16384)
  | .rnrTimerExpiry qpn => decide (qpn < 16384)
  | .ackTimeout qpn => decide (qpn < 16384)
  | .retriesExhausted qpn => decide (qpn < 16384)
  | .remoteAccessErrorNak qpn => decide (qpn < 16384)
  | .remoteOperationalErrorNak qpn => decide (qpn < 16384)
  | .exportLinkDown port => decide (port < 5)
  | .exportRetrainTimeout port => decide (port < 5)
  | .exportFecWindowEnd port _ => decide (port < 5)
  | .inboundRdmaWrite f _ _ _ _ => f.wf
  | .inboundRdmaRead f _ _ _ _ => f.wf
  | .rdmaWriteWithImmediate qpn => decide (qpn < 16384)
  | .rdmaReadResponse _ => true
  | .sqTail qpn _ => decide (qpn < 16384)
  | .cqHead qpn _ => decide (qpn < 16384)
  | .submissionNop qpn => decide (qpn < 16384)
  | .run qpn => decide (qpn < 16384)
  | .ceMarkedPacket qpn => decide (qpn < 16384)
  | .cnp qpn => decide (qpn < 16384)
  | .rateRecoveryPeriodEnd qpn => decide (qpn < 16384)
  | .pfcPauseFrame port prio _ => decide (port < 5) && decide (prio < 8)
  | .hostLinkDown => true
  | .hostLinkUp => true
  | .qpCreate => true
  | .qpDestroy => true
  | .queueCreate => true
  | .queueDestroy => true
  | .map => true
  | .load => true
  | .unmap => true
  | .protect => true
  | .mappingCutoverDone ward => decide (ward < 512)
  | .lend => true
  | .unlend => true
  | .borrow => true
  | .windowQuery src window ward _ _ => decide (src < 4096) && decide (window < 8) && decide (ward < 512)
  | .csrWrite => true
  | .netCfg => true
  | .wardCreate => true
  | .wardDelete => true
  | .wardPolicy => true
  | .ownerSet => true
  | .fwUpdate => true
  | .quote => true
  | .scrubDue pc => decide (pc < 128)
  | .patrolScrubRead pc upsets => decide (pc < 128) && upsetsWf upsets
  | .translationCopyRebuilt stack => decide (stack < 4)
  | .controlCoreFault g _ => decide (g < 24)
  | .estimationWindowEnd _ temps => decide (temps.length = 28)
  | .budgetsInForce => true
  | .frequencyStepDone g => decide (g < 24)
  | .avsbusResponse die _ _ => decide (die < 4)
  | .avsbusRetryTimer die => decide (die < 4)
  | .droopDetected g => decide (g < 24)
  | .droopStretchEnd g => decide (g < 24)
  | .droopRecoveryEnd g => decide (g < 24)
  | .thermalTrip sensor _ => decide (sensor < 28)
  | .pwrCapWrite _ _ => true
  | .troubleLogWrite => true
  | .ceLimitWindowEnd pc => decide (pc < 128)
  | .eventNotice => true
  | .operatingSecondEnd => true
  | .historyPeriod => true
  | .journalAppend _ => true
  | .blockEraseDone _ => true
  | .append _ => true
  | .shutdown _ => true
  | .powerOn _ => true
  | .pwrGoodFall => true
  | .resetNAssert => true
  | .resetNRelease => true
  | .clockDetected => true
  | .bootRom _ => true
  | .deviceControllerUp vddcAnswers => decide (vddcAnswers.length = 4)
  | .journalRecovery => true
  | .hbmTraining _ => true
  | .selfTest result => result.wf
  | .linkTraining _ hinge _ => decide (hinge.length = 6)
  | .readyReport => true
  | .startStepTimeout => true
  | .orderlyRestart _ => true
  | .immediateRestart _ => true
  | .keywayLoad _ _ => true
  | .partnerEnable _ p _ => decide (p < 256)
  | .partnerDisable _ p _ => decide (p < 256)
  | .exportPortEnable port => decide (port < 5)
  | .connect _ => true
  | .drop _ => true
  | .sysTimeOffsetWrite _ _ => true
  | .registerWrite _ _ _ => true
  | .setPointer _ => true
  | .writeWords _ => true
  | .privateRead => true
  | .rstdaa => true
  | .setdasa _ => true
  | .entdaa _ => true
  | .enec _ => true
  | .disec _ => true
  | .getpid => true
  | .getbcr => true
  | .getdcr => true
  | .getstatus => true
  | .getmxds => true
  | .hotJoin => true
  | .bypass => true
  | .idcode => true
  | .samplePreload _ => true
  | .extest _ => true
  | .extestPulse => true
  | .extestTrain => true
  | .clamp => true
  | .highz => true
  | .tapReset _ => true
  | .dieLinkRetrainDone link => decide (link < 8)
  | .exportLinkUp port => decide (port < 5)
  | .hostRdmaWriteAcknowledged qpn => decide (qpn < 16384)
  | .waitLimitExpiry c => decide (c < 192)
  | .slotProgramDone _ => true
  | .windowQueryAnswer lender window _ => decide (lender < 4096) && decide (window < 8)
  | .descriptorExchange port ward _ _ => decide (port < 6) && decide (ward < 512)

end Sys2Proof
end

