-- ==== Sys2Proof/Certificates/Slice0/Obligations.lean ====
section
/-! DEFINITION. The statements for the provers. -/
open Sys2Proof Sys2Proof.Machine

/-! ### The queue and the words of instructions -/

/-- A step on a queue that is not empty runs the command at its front with the queue's rest. -/
def Obligations.StepRunsFront : Prop :=
  ∀ (c : Instr) (cs : List Instr) (s : State),
    step { s with pending := c :: cs } = exec c { s with pending := cs }

/-- An empty queue lets one SCLK cycle pass (log entry 10): raw time advances by 2 and 3 ns in turn (R453), the step
latch counts one more and stops at the step length (R384, log entry 169), STEP_OUT's remaining width falls, and what
the cycle's writes had left in force is dropped (log entry 174). Nothing else changes, but that the times of a port's
exchange under way move with an offset that changed in the cycle (R453). In reset or off nothing happens. -/
def Obligations.EmptyQueueIsOneCycle : Prop :=
  ∀ s : State, s.pending = [] → Registers.wf s.csr →
    (s.boot.clocks = false → step s = .next s) ∧
    (s.boot.clocks = true → ∃ t, step s = .next t ∧
      t.raw = (s.raw + if s.latch.half then 3 else 2) % 2 ^ 64 ∧
      t.latch = { s.latch with half := !s.latch.half, since := min s.latch.length (s.latch.since + 1),
                               ran := s.latch.ran + 1, out := s.latch.out - 1, old := [], oldOffset := none } ∧
      t = { s with csr := t.csr, latch := t.latch, hinge := t.hinge } ∧
      (s.latch.oldOffset = none → t.hinge = s.hinge) ∧
      (∃ move : Nat → Nat, t.hinge = { s.hinge with
        ports := s.hinge.ports.map fun h => { h with lastTx := move h.lastTx, lastRx := move h.lastRx } }) ∧
      ∀ (f : Fld) (i : Nat), f.key i ≠ Fld.sysTimeRaw_RAW.key 0 → t.rd f i = s.rd f i)

/-- Decode of encode: the words of every well-formed instruction spell that instruction, with every field of its layout
table at every value (Tables 12.1 to 12.16a). -/
def Obligations.DecodeOfEncode : Prop :=
  ∀ (i : Instr) (c : Nat) (b x : Word), i.wf = true → encodeWords i = some (c, b, x) → decodeWords c b x = some i

/-- A base word spells an instruction exactly where Table 12.1 lists its unit and opcode; the sequencer's fetch refuses
the others (R44). -/
def Obligations.DefinedOpcodesDecode : Prop :=
  ∀ (c : Nat) (b x : Word), (decodeWords c b x).isSome = opcodeDefined b.toNat

/-! ### Sequencer instructions -/

/-- ADD to MAXU (Table 12.3): RD gets the operation's value modulo 2^64 (nothing where RD is s0), B being RB or the
sign-extended immediate; the program counter moves past the word and nothing else of the block changes. -/
def Obligations.ArithmeticWritesDestination : Prop :=
  ∀ p ∈ aluTable, ∀ (c : Nat) (w : ScalarWord) (s : State) (t : TileCtx),
    s.Issues c 1 t → w.ok true true true (!w.i) w.i = true →
    exec (p.1 c w) s = .next (s.setCore c (((s.core c).past 1).setS w.rd.toNat
      (p.2 ((s.core c).sreg w.ra.toNat) (if w.i then w.imm.signExtend 64 else (s.core c).sreg w.rb.toNat))))

/-- NOP does nothing, LI and LIS build constants, TBASE rewrites the BASE of a t register and keeps its other fields
(Table 12.3); nothing else changes but the program counter. The scalar register file: s0 reads as zero and discards
writes, a write changes no other register (Table 2.6, R307). -/
def Obligations.ScalarRegisters : Prop :=
  (∀ (c : Nat) (w : ScalarWord) (s : State) (t : TileCtx), s.Issues c 1 t →
      let k := s.core c
      (w.ok false false false false false = true → exec (.nop c w) s = .next (s.setCore c (k.past 1))) ∧
      (w.ok false true false false true = true →
        exec (.li c w) s = .next (s.setCore c ((k.past 1).setS w.rd.toNat (BitVec.ofInt 64 w.imm.toInt)))) ∧
      (w.ok false true true false true = true →
        exec (.lis c w) s = .next (s.setCore c ((k.past 1).setS w.rd.toNat
          ((k.sreg w.ra.toNat).extractLsb' 0 44 ++ w.imm)))) ∧
      (w.ok false true true false true = true → w.rd.toNat < 32 →
        exec (.tbase c w) s = .next (s.setCore c ((k.past 1).setT w.rd.toNat
          ((k.treg w.rd.toNat).extractLsb' 64 192 ++ (k.sreg w.ra.toNat + w.imm.signExtend 64)))))) ∧
  (∀ (k : Core) (n m : Nat) (v : Word), Smap.wf 0 k.s = true →
      (k.setS n v).sreg m = (if m = 0 then 0 else if m = n then v else k.sreg m) ∧
      Smap.wf 0 (k.setS n v).s = true ∧ { k.setS n v with s := k.s } = k)

/-- LD and TLD read 8 and 32 bytes at RA + sext(IMM) of the core's own memory (Table 12.3), and change only their
destination and the program counter. ST writes RB as 8 bytes, lowest first, at RA + sext(IMM) of the core's own memory
(Table 12.3); every other byte of memory, every register and every mark stays. -/
def Obligations.LoadsAndStores : Prop :=
  (∀ (c : Nat) (w : ScalarWord) (s : State) (t : TileCtx), s.Issues c 1 t →
      w.ok false true true false true = true →
      let k := s.core c
      let a := k.here (k.sreg w.ra.toNat + w.imm.signExtend 64).toNat
      (s.Usable c a 8 → exec (.ld c w) s = .next (s.setCore c ((k.past 1).setS w.rd.toNat
        (BitVec.ofNat 64 (s.peekN (a % 2 ^ 52) 8))))) ∧
      (w.rd.toNat < 32 → s.Usable c a 32 → exec (.tld c w) s = .next (s.setCore c ((k.past 1).setT w.rd.toNat
        (BitVec.ofNat 256 (s.peekN (a % 2 ^ 52) 32)))))) ∧
  (∀ (c : Nat) (w : ScalarWord) (s : State) (t : TileCtx), s.Issues c 1 t → s.Wf →
      w.ok false false true true true = true →
      let k := s.core c
      let a := k.here (k.sreg w.ra.toNat + w.imm.signExtend 64).toNat
      s.Usable c a 8 true →
      ∃ u, exec (.st c w) s = .next u ∧ u.core c = k.past 1 ∧
        (∀ i < 8, u.byte (a % 2 ^ 52 + i) = (k.sreg w.rb.toNat).extractLsb' (8 * i) 8) ∧
        (∀ x, (x < a % 2 ^ 52 ∨ a % 2 ^ 52 + 8 ≤ x) → u.byte x = s.byte x) ∧
        u = { s with cores := u.cores, mem := u.mem } ∧ ∀ j, j ≠ c → u.core j = s.core j)

/-- Where the address of LD, ST or TLD is not a multiple of the width, or lies outside the core's own memory, the task
faults with the first of MISALIGNED and NOT_LOCAL (Table 12.3, R309), before any damage of the word is looked at. An
instruction with a reserved bit set, an unused field that is not 0 or an extension word it may not have faults with
ILLEGAL_INSTRUCTION and executes nothing (R44, R305, R306). -/
def Obligations.InstructionFaults : Prop :=
  (∀ (c : Nat) (w : ScalarWord) (s : State) (t : TileCtx), s.Issues c 1 t →
      let a := (s.core c).here ((s.core c).sreg w.ra.toNat + w.imm.signExtend 64).toNat
      let code := fun n : Nat => if a % n ≠ 0 then cMisaligned else cNotLocal
      (w.ok false true true false true = true → s.blocked c a 8 = false → (a % 8 ≠ 0 ∨ s.own c a 8 = false) →
        exec (.ld c w) s = .next ((s.advance c 1).taskFault c (code 8))) ∧
      (w.ok false false true true true = true → s.blocked c a 8 true = false → (a % 8 ≠ 0 ∨ s.own c a 8 = false) →
        exec (.st c w) s = .next ((s.advance c 1).taskFault c (code 8))) ∧
      (w.ok false true true false true = true → w.rd.toNat < 32 → s.blocked c a 32 = false →
        (a % 32 ≠ 0 ∨ s.own c a 32 = false) →
        exec (.tld c w) s = .next ((s.advance c 1).taskFault c (code 32)))) ∧
  (∀ (c : Nat) (s : State) (t : TileCtx), s.Issues c 1 t →
      (∀ p ∈ aluTable, ∀ w : ScalarWord, (w.rsv ≠ 0 ∨ w.ext = true ∨ (w.i = true ∧ w.rb ≠ 0)) →
        exec (p.1 c w) s = .next (s.taskFault c cIllegal)) ∧
      (∀ p ∈ branchTable, ∀ w : ScalarWord, (w.rsv ≠ 0 ∨ w.ext = true ∨ w.i = true ∨ w.rd ≠ 0) →
        exec (p.1 c w) s = .next (s.taskFault c cIllegal)) ∧
      (∀ w : MmaWord, (w.rsv ≠ 0 ∨ w.ext = true ∨ w.form = 3) →
        exec (.mma c w) s = .next (s.taskFault c cIllegal)) ∧
      (∀ w : MoveWord, (w.rsv ≠ 0 ∨ w.ext = true ∨ w.aop ≠ 0) →
        exec (.mov c w) s = .next (s.taskFault c cIllegal)))

/-- A taken branch and JMP set the program counter to PC + sext(IMM) x 8, a branch that is not taken moves past its
word (Table 12.3); nothing else changes. -/
def Obligations.BranchesMoveTheProgramCounter : Prop :=
  ∀ (c : Nat) (w : ScalarWord) (s : State) (t : TileCtx), s.Issues c 1 t → (s.core c).pc < 2 ^ 64 →
    let k := s.core c
    let target := (((k.pc : Int) + w.imm.toInt * 8) % 2 ^ 64).toNat
    (∀ p ∈ branchTable, w.ok false false true true true = true →
      exec (p.1 c w) s = .next (s.setCore c
        (if p.2 (k.sreg w.ra.toNat) (k.sreg w.rb.toNat) then { k with pc := target } else k.past 1))) ∧
    (w.ok false false false false true = true → exec (.jmp c w) s = .next (s.setCore c { k with pc := target }))

/-! ### Synchronisation -/

/-- FENCE completes where no operation of the core is on its way (R50); WAIT and WAIT.I go on where the word has
reached the value, compared unsigned (R52); SIGNAL adds its increment modulo 2^64 to a word of this node (R51, R313).
What ends a WAIT (R52): an increment that reaches the value wakes it, a poll of a word in HBM does, the limit faults
the task with WAIT_TIMEOUT unless the word has reached the value; the limit of the other waits has no other effect than
that fault (R185, R278). A word still below the value leaves the core waiting. -/
def Obligations.Synchronisation : Prop :=
  (∀ (c : Nat) (w : ScalarWord) (s : State) (t : TileCtx), s.Issues c 1 t → s.Wf →
      let k := s.core c
      let a := k.here (k.sreg w.ra.toNat).toNat
      (k.ops = [] → w.ok false false false false false = true →
        exec (.fence c w) s = .next (s.setCore c (k.past 1))) ∧
      (∀ l, s.waitPlace t.ward a = (0, .phys l) → s.sound l 8 = true →
        (w.ok false false true true false = true → (k.sreg w.rb.toNat).toNat ≤ s.peekN l 8 →
          exec (.wait c w) s = .next (s.setCore c { k.past 1 with phase := .running, wait := none })) ∧
        (w.ok false false true true false = true → s.peekN l 8 < (k.sreg w.rb.toNat).toNat →
          exec (.wait c w) s = .next (s.setCore c
            { k.past 1 with phase := .waiting, wait := some (.signal l (k.sreg w.rb.toNat).toNat) })) ∧
        (w.ok false false true false true = true → w.imm.toNat ≤ s.peekN l 8 →
          exec (.waitI c w) s = .next (s.setCore c { k.past 1 with phase := .running, wait := none }))) ∧
      (∀ l, s.signalPlace t.ward a = (0, .phys l) → l % 8 = 0 → ((∀ off, region l ≠ .hbm off) ∨ s.Clean) → s.sound l 8 = true →
        w.ok false false true false true = true → 0 < w.imm.toNat → w.imm.toNat < 2 ^ 16 → k.ops = [] →
        ∃ u, exec (.signal c w) s = .next u ∧ u.peekN l 8 = (s.peekN l 8 + w.imm.toNat) % 2 ^ 64 ∧
          (∀ x, (x < l ∨ l + 8 ≤ x) → u.byte x = s.byte x) ∧ u.core c = k.past 1 ∧
          u = { s with cores := u.cores, mem := u.mem })) ∧
  (∀ (c a v : Nat) (s : State), c < s.cores.length → (s.core c).phase = .waiting →
      ((s.core c).wait = some (.signal a v) → s.sound a 8 = true →
        (v ≤ s.peekN a 8 →
          (inHbm a = false → exec (.waitWake c) s = .next (s.setCore c { s.core c with phase := .running, wait := none })) ∧
          (inHbm a = true → exec (.waitPoll c) s = .next (s.setCore c { s.core c with phase := .running, wait := none })) ∧
          exec (.waitTimeout c) s = .next (s.setCore c { s.core c with phase := .running, wait := none })) ∧
        (s.peekN a 8 < v →
          exec (.waitWake c) s = .next s ∧ exec (.waitPoll c) s = .next s ∧
          exec (.waitTimeout c) s = .next (s.taskFault c cWaitTimeout))) ∧
      (∀ x, (s.core c).wait = some x → (∀ a v, x ≠ .signal a v) →
        exec (.waitLimitExpiry c) s = .next (s.taskFault c cWaitTimeout)))

/-! ### Vector instructions -/

/-- An FP32 vector instruction (R316): each of the 64 lanes holds what its own operands give, rounded once in the mode
of RND (stochastic rounding aside); the flags of all lanes are ORed into the status word; every other register stays,
and with an exception record already taken nothing but the core changes. The INT32 forms wrap modulo 2^32, their
minima and comparisons are signed, and they raise no flag; VSEL and VBCAST move a lane's bits unchanged (R316, Table
12.9). Nothing else of the core changes. -/
def Obligations.VectorLanes : Prop :=
  (∀ p ∈ vectorTable, ∀ (c : Nat) (w : VecWord) (s : State) (t : TileCtx),
      s.Issues c (wordsOfExt w.ext) t → Smap.wf 0 (s.core c).v = true → p.2.1 w = true → w.type = 0 →
      (p.2.2.1 = false ∨ w.rnd ≠ 2) → t.Heeds [w.norm.srb.toNat, w.norm.salt.toNat] →
      let k := s.core c
      let lane := fun l => (p.2.2.2 (k.fpLane w.ra.toNat l) (k.fpLane w.rb.toNat l) (k.fpLane w.rc.toNat l)).round
        { mode := if p.2.2.1 = true ∧ w.rnd = 1 then .rtz else .rne }
      ∃ u, exec (p.1 c w) s = .next u ∧
        (∀ l < 64, (u.core c).lane w.rd.toNat l = BitVec.ofNat 32 (lane l).1) ∧ k.KeepsLanes (u.core c) w.rd.toNat ∧
        (∀ i, (u.core c).status.testBit i = (k.status.testBit i || (List.range 64).any fun l => (lane l).2.testBit i)) ∧
        { u.core c with v := k.v, status := k.status } = k.past (wordsOfExt w.ext) ∧
        s.OnlyCore u c ∧ (s.flag .coreExcRecord_VALID c = true → u.csr = s.csr)) ∧
  (∀ (c : Nat) (w : VecWord) (s : State) (t : TileCtx),
      s.Issues c (wordsOfExt w.ext) t → Smap.wf 0 (s.core c).v = true → t.Heeds [w.norm.srb.toNat, w.norm.salt.toNat] →
      let k := s.core c
      let a := fun l => k.lane w.ra.toNat l
      let b := fun l => k.lane w.rb.toNat l
      let gives := fun (i : Instr) (f : Nat → Lane) => ∃ u, exec i s = .next u ∧
        (∀ l < 64, (u.core c).lane w.rd.toNat l = f l) ∧ k.KeepsLanes (u.core c) w.rd.toNat ∧
        { u.core c with v := k.v } = k.past (wordsOfExt w.ext) ∧ s.OnlyCore u c ∧ u.csr = s.csr
      (∀ p ∈ intVectorTable, vecOk w true true false false = true → w.type = 1 →
        gives (p.1 c w) fun l => BitVec.ofInt 32 (p.2 (a l).toInt (b l).toInt)) ∧
      (vecOk w true true false true = true → w.type = 1 → w.cc.toNat < 4 →
        gives (.vcmp c w) fun l => if (if w.cc = 0 then decide ((a l).toInt = (b l).toInt)
          else if w.cc = 1 then decide ((a l).toInt ≠ (b l).toInt) else if w.cc = 2 then decide ((a l).toInt < (b l).toInt)
          else decide ((a l).toInt ≤ (b l).toInt)) then 0xFFFFFFFF else 0) ∧
      (vecOk w true true true false = true → gives (.vsel c w) fun l => if a l = 0 then k.lane w.rc.toNat l else b l) ∧
      (vecOk w false false false false = true → w.type = 0 →
        gives (.vbcast c w) fun _ => (k.sreg w.ra.toNat).extractLsb' 0 32))

/-- R82: comparisons treat NaN as unordered. A lane of VCMP holds all ones where the condition holds, else zero; INVALID
is raised for the lanes that the rule names and no other. -/
def Obligations.ComparisonsTreatNanAsUnordered : Prop :=
  ∀ (c : Nat) (w : VecWord) (s : State) (t : TileCtx),
    s.Issues c (wordsOfExt w.ext) t → Smap.wf 0 (s.core c).v = true → vecOk w true true false true = true → w.type = 0 →
    w.cc.toNat ≤ 4 → t.Heeds [w.norm.srb.toNat, w.norm.salt.toNat] →
    let k := s.core c
    let a := k.fpLane w.ra.toNat
    let b := k.fpLane w.rb.toNat
    let nan := fun l => (a l).isNan || (b l).isNan
    let snan := fun l => decide ((a l).cls = .snan) || decide ((b l).cls = .snan)
    let holds : Nat → Bool := fun l =>
      if w.cc = 4 then nan l
      else if nan l then decide (w.cc = 1)
      else if (a l).cls = .zero ∧ (b l).cls = .zero then decide (w.cc = 0) || decide (w.cc = 3)
      else if w.cc = 0 then !(a l).lt (b l) && !(b l).lt (a l)
      else if w.cc = 1 then (a l).lt (b l) || (b l).lt (a l)
      else if w.cc = 2 then (a l).lt (b l)
      else !(b l).lt (a l)
    let invalid : Nat → Bool := fun l => if w.cc = 2 ∨ w.cc = 3 then nan l else snan l
    ∃ u, exec (.vcmp c w) s = .next u ∧
      (∀ l < 64, (u.core c).lane w.rd.toNat l = if holds l then 0xFFFFFFFF else 0) ∧
      ((u.core c).status = k.status ||| if (List.range 64).any invalid then flInvalid else 0) ∧
      k.KeepsLanes (u.core c) w.rd.toNat ∧ s.OnlyCore u c

/-- CVT converts each lane between the two formats it names in the mode of RND (stochastic rounding aside), and ORs
the flags into the status word (R87, Table 12.11). A finite float code decodes to a value that rounds back to the same
code, exactly and without a flag, in every rounding mode (R65, R75 to R78). -/
def Obligations.ConversionsAndRounding : Prop :=
  (∀ (c : Nat) (w : CvtWord) (s : State) (t : TileCtx) (src dst : Fmt),
      s.Issues c (wordsOfExt w.ext) t → Smap.wf 0 (s.core c).v = true → t.Heeds [w.norm.srb.toNat, w.norm.salt.toNat] →
      Fmt.ofCvt w.src.toNat = some src → Fmt.ofCvt w.dst.toNat = some dst → cvtDefined src dst = true →
      w.rsv = 0 → w.norm.rsvExt = 0 → w.rb = 0 → w.rc = 0 → w.rnd.toNat < 2 →
      let k := s.core c
      let lane := fun l => Sys2Proof.Machine.cvt src dst w.sat { mode := if cvtRounds src dst = true ∧ w.rnd = 1 then .rtz else .rne }
        ((k.lane w.ra.toNat l).toNat % 2 ^ src.bits)
      ∃ u, exec (.cvt c w) s = .next u ∧
        (∀ l < 64, (u.core c).lane w.rd.toNat l = BitVec.ofNat 32 (lane l).1) ∧ k.KeepsLanes (u.core c) w.rd.toNat ∧
        (∀ i, (u.core c).status.testBit i = (k.status.testBit i || (List.range 64).any fun l => (lane l).2.testBit i)) ∧
        { u.core c with v := k.v, status := k.status } = k.past (wordsOfExt w.ext) ∧ s.OnlyCore u c) ∧
  (∀ (f : Fmt), f = .fp16 ∨ f = .bf16 ∨ f = .fp32 → ∀ (x : Nat) (r : Rounding), x < 2 ^ f.bits → r.draw < 2 ^ r.srb →
      (Num.decode f x).cls = .zero ∨ (Num.decode f x).cls = .fin → roundNum f r (Num.decode f x) = (x, 0))

/-- VLD and VST move 64 consecutive elements of the named format between own memory and the low bits of the lanes,
unchanged (R317); VST changes no other byte, VLD no other register. -/
def Obligations.VectorLoadAndStore : Prop :=
  ∀ (c : Nat) (w : VMemWord) (s : State) (t : TileCtx) (f : Fmt),
    s.Issues c (wordsOfExt w.ext) t → s.Wf → Smap.wf 0 (s.core c).v = true → t.Heeds [w.norm.srb.toNat, w.norm.salt.toNat] →
    Fmt.ofCode w.fmt.toNat = some f →
    let k := s.core c
    let a := k.here (k.sreg w.ra.toNat + w.imm.signExtend 64).toNat
    (vmemOk w true false = true → s.Usable c a (8 * f.bits) → ∃ u, exec (.vld c w) s = .next u ∧
      (∀ l < 64, ((u.core c).lane w.rd.toNat l).toNat = s.peekN (a % 2 ^ 52) (8 * f.bits) / 2 ^ (f.bits * l) % 2 ^ f.bits) ∧
      k.KeepsLanes (u.core c) w.rd.toNat ∧ { u.core c with v := k.v } = k.past (wordsOfExt w.ext) ∧ s.OnlyCore u c) ∧
    (vmemOk w false true = true → s.Usable c a (8 * f.bits) true → ∃ u, exec (.vst c w) s = .next u ∧
      (∀ l < 64, u.peekN (a % 2 ^ 52) (8 * f.bits) / 2 ^ (f.bits * l) % 2 ^ f.bits
        = (k.lane w.rb.toNat l).toNat % 2 ^ f.bits) ∧
      (∀ x, (x < a % 2 ^ 52 ∨ a % 2 ^ 52 + 8 * f.bits ≤ x) → u.byte x = s.byte x) ∧
      u.core c = k.past (wordsOfExt w.ext) ∧ u = { s with cores := u.cores, mem := u.mem })

/-- R79: the tumbler is xorshift64*: its state is the shifted value, which is never 0 where it was not, its output the
64-bit product, and rnd the top SRB bits of it. -/
def Obligations.TumblerIsXorshift : Prop :=
  (∀ x : Word, x ≠ 0 →
    let a := x ^^^ BitVec.ofNat 64 (x.toNat / 2 ^ 12)
    let b := a ^^^ BitVec.ofNat 64 (a.toNat * 2 ^ 25)
    let y := b ^^^ BitVec.ofNat 64 (b.toNat / 2 ^ 27)
    (tumblerDraw x).1 = y ∧ y ≠ 0 ∧ (tumblerDraw x).2.toNat = y.toNat * 0x2545F4914F6CDD1D % 2 ^ 64 ∧
    ∀ srb ≤ 64, drawBits srb (tumblerDraw x).2 = (tumblerDraw x).2.toNat / 2 ^ (64 - srb)) ∧
  tumblerDraw 1 = (0x02000001, 0x47E4CE4B896CDD1D) ∧ drawBits 16 (tumblerDraw 1).2 = 0x47E4 ∧
  ∀ (seed : Word) (b tm tn salt l : Nat), tumblerSeed seed b tm tn salt l ≠ 0

/-! ### Matrix engines -/

/-- What an MMA leaves (R99, R100, R103): every accumulator of its M x N region is the earlier one (a cleared one with
ACC = 0) through the passes of its form and split in ascending K, every other accumulator of the engine's tiles outside
the ones it clears is as before, and nothing besides the core, its exception record and status changes. -/
def Obligations.MatrixProduct : Prop :=
  ∀ (c : Nat) (w : MmaWord) (s : State) (t : TileCtx),
    s.Issues c 1 t → Smap.wf {} (s.core c).acc = true → mmaOk w false = true → w.gather = false → t.Heeds [w.form.toNat] →
    let k := s.core c
    let j := mmaJob k t w false
    k.accHeld = false → s.mmaHeld c w j = false → s.mmaCode c w false j = 0 →
    (∀ p ∈ j.a.ranges 0 j.m 0 j.kLen ++ j.b.ranges 0 j.kLen 0 j.n, s.sound (p.1 % 2 ^ 52) p.2 = true) →
    let rows := tileRows j.wide
    let key := fun r col => accKey w.eng.toNat j.wide (w.rd.toNat + r / rows) (r % rows) col
    let cleared := fun x => w.acc = false ∧ accKey w.eng.toNat false w.rd.toNat 0 0 ≤ x ∧
      x < accKey w.eng.toNat false (w.rd.toNat + ceilDiv j.m rows) 0 0
    ∃ u, exec (.mma c w) s = .next u ∧
      (∀ r < j.m, ∀ col < j.n, (u.core c).accAt (key r col) =
        (accElem (j.a.fmt.isInt && j.b.fmt.isInt) w.sat j.kLen (if j.wide then 16 else 64)
          (mmaPasses w.split.toNat (s.rowOf j.a j.kLen (some r)) (s.colOf j.b j.kLen col))
          (if w.acc then k.accAt (key r col) else {})).1) ∧
      (∀ x, (∀ r < j.m, ∀ col < j.n, x ≠ key r col) → (u.core c).accAt x = if cleared x then {} else k.accAt x) ∧
      { u.core c with acc := k.acc, status := k.status, engines := k.engines } = k.past 1 ∧ s.OnlyCore u c

/-- A CMMA leaves in tiles RD onward the real part ar.br, then -ai.bi, and in tiles RD + 4 onward the imaginary part
ar.bi, then ai.br, each in ascending K (R86, R109). -/
def Obligations.ComplexProduct : Prop :=
  ∀ (c : Nat) (w : MmaWord) (s : State) (t : TileCtx),
    s.Issues c 1 t → Smap.wf {} (s.core c).acc = true → mmaOk w true = true → w.gather = false → t.Heeds [w.form.toNat] →
    let k := s.core c
    let j := mmaJob k t w true
    k.accHeld = false → s.mmaHeld c w j = false → s.mmaCode c w true j = 0 →
    (∀ d ∈ [j.a, j.a2], ∀ p ∈ d.ranges 0 j.m 0 j.kLen, s.sound (p.1 % 2 ^ 52) p.2 = true) →
    (∀ d ∈ [j.b, j.b2], ∀ p ∈ d.ranges 0 j.kLen 0 j.n, s.sound (p.1 % 2 ^ 52) p.2 = true) →
    let rows := tileRows j.wide
    let key := fun part r col => accKey w.eng.toNat j.wide (w.rd.toNat + 4 * part + r / rows) (r % rows) col
    let a := fun d r => (s.rowOf d j.kLen (some r)).map Num.toCofNum
    let b := fun d col => (s.colOf d j.kLen col).map Num.toCofNum
    let elem := fun (ps : List Pass) (x : Nat) => (accElem (j.a.fmt.isInt && j.b.fmt.isInt) w.sat j.kLen
      (if j.wide then 16 else 64) ps (if w.acc then k.accAt x else {})).1
    ∃ u, exec (.cmma c w) s = .next u ∧
      (∀ r < j.m, ∀ col < j.n,
        (u.core c).accAt (key 0 r col) =
          elem [{ a := a j.a r, b := b j.b col }, { a := a j.a2 r, b := b j.b2 col, neg := true }] (key 0 r col) ∧
        (u.core c).accAt (key 1 r col) =
          elem [{ a := a j.a r, b := b j.b2 col }, { a := a j.a2 r, b := b j.b col }] (key 1 r col)) ∧
      { u.core c with acc := k.acc, status := k.status, engines := k.engines } = k.past 1 ∧ s.OnlyCore u c

/-- MMF.EXP and MMF.ROW without the reference buffer (R140 to R142): the row-state array holds each row's new state, no
other byte of memory changes, and of the core only accumulators, status and engines besides the program counter. -/
def Obligations.FusedProducts : Prop :=
  ∀ (row : Bool) (c : Nat) (w : MmfWord) (s : State) (t : TileCtx),
    s.Issues c 2 t → s.Wf → mmfOk w row = true → w.ref = false → t.Heeds [w.form.toNat] →
    let k := s.core c
    let j := mmfJob k t w
    k.accHeld = false → (j.reads w.init).any (fun r => s.blocked c r.1 r.2) = false → s.mmfCode c w j = 0 →
    s.Clean →
    let vs := (List.range j.d.rows).map fun i => (List.range j.d.cols).map fun x => (s.elemNum j.d i x).toCofNum
    let depth := if j.wide then 16 else 64
    let rows := tileRows j.wide
    let k0 := if w.init then k.clearTiles w.eng.toNat w.rd.toNat (ceilDiv j.a.rows rows) else k
    let result := fun r =>
      let st : Row := if w.init then {} else Row.decode (s.peek (j.area % 2 ^ 52 + 32 * r) 32)
      let o := (List.range j.d.cols).map fun x => k0.accAt (accKey w.eng.toNat j.wide (w.rd.toNat + r / rows) (r % rows) x)
      let st := { st with o := o }
      let xs := ((s.mmfProduct j).getD r []).map (·.1)
      if row then mmfRowRow { st with nan := false } xs (if w.kind then 3 else 1) vs depth
      else mmfExpRow st xs (Num.decode .fp32 ((k.sreg w.rc.toNat).toNat % 2 ^ 32)) vs depth
    ∃ u, exec (if row then .mmfRow c w else .mmfExp c w) s = .next u ∧
      (∀ r < j.a.rows, u.peek (j.area % 2 ^ 52 + 32 * r) 32 = (result r).row.encode 0) ∧
      (∀ x, (x < j.area % 2 ^ 52 ∨ j.area % 2 ^ 52 + 32 * j.a.rows ≤ x) → u.byte x = s.byte x) ∧
      { u.core c with acc := k.acc, status := k.status, engines := k.engines } = k.past 2

/-- An engine fault or a pass beyond its time limit (R114, R115, Table 4.7): its cause and engine are recorded; the first
in a tile on a core replays the tile there, the second excludes the core and returns the tile, or faults the task with
ENGINE_FAULT where the tile has excluded a core before. Of an instruction that waits no longer, a staged block goes into
the stationary register of the other tag, unless a row of that tag is within residency: then the copy is refused and
nothing changes (R106). -/
def Obligations.EngineEvents : Prop :=
  (∀ (c e : Nat) (s : State) (t : TileCtx) (i : Instr) (n : Nat),
    (i, n) ∈ [(.engineFault c e .residue, 1), (.engineFault c e .stationaryParity, 2),
      (.engineFault c e .accumulatorParity, 3), (.passTimeLimit c e, 4)] →
    (s.core c).tile = some t → (s.core c).active = true →
    let s1 := (s.wr .engStat_LAST_CAUSE c n).wr .engStat_LAST_ENG c e
    let detail := n + e * 16 + t.idx * 2 ^ 24
    let again := ((s1.task t.req t.task).map (·.excludedCores)).getD []
    ((s.core c).replays = 0 → exec i s = .next ((s1.event 0x05 c 1 t.ward 0x10 detail).replayTile c t
      (if (s.core c).phase = .stopping then .stopping else .running))) ∧
    ((s.core c).replays ≠ 0 → (∃ p ∈ again, p.1 = t.idx) → exec i s = .next (s1.taskFault c cEngineFault)) ∧
    ((s.core c).replays ≠ 0 → (∀ p ∈ again, p.1 ≠ t.idx) → exec i s = .next
      (((s1.event 0x05 c 3 t.ward 0x11 detail).modTask t.req t.task fun x =>
        { x with excludedCores := (t.idx, c) :: x.excludedCores }).excludeCore c))) ∧
  (∀ (c e : Nat) (s : State) (b : List Cof) (bs : List (List Cof)), c < s.cores.length → e < (s.core c).engines.length →
    let x := (s.core c).engines.getD e {}
    x.staged = b :: bs → x.tag < 2 → x.regs.length = 2 → x.copied = false → s.engineWaits c e = false →
    (1 - x.tag ∈ x.rows → exec (.stationaryCopy c e) s = .next s) ∧
    (1 - x.tag ∉ x.rows → ∃ u, exec (.stationaryCopy c e) s = .next u ∧
      let y := (u.core c).engines.getD e {}
      y.tag = x.tag ∧ y.copied = true ∧ y.regs.getD (1 - x.tag) [] = b ∧ y.regs.getD x.tag [] = x.regs.getD x.tag [] ∧
      y.staged = bs ∧ y.rows = x.rows ∧ { u.core c with engines := (s.core c).engines } = s.core c))

/-! ### Chains, EPI and KVA -/

/-- CHAIN.LD loads n words of own memory into slot k after its checks, and changes nothing else; a word that is no chain
instruction faults the task with ILLEGAL_INSTRUCTION and loads nothing (R122, R319). -/
def Obligations.ChainLoads : Prop :=
  ∀ (c : Nat) (w : ChainLdWord) (s : State) (t : TileCtx), s.Issues c 1 t → w.rsv = 0 → w.ext = false → w.rd.toNat < 4 →
    let k := s.core c
    let a := k.here (k.sreg w.ra.toNat).toNat
    let n := w.n.toNat
    let words := (List.range n).map fun i => s.peekN (a % 2 ^ 52 + 8 * i) 8
    0 < n → n ≤ 64 → a % 64 = 0 → s.own c a (8 * n) = true → s.blocked c a (8 * n) = false →
    s.sound (a % 2 ^ 52) (8 * n) = true →
    (chainOk words = true → exec (.chainLd c w) s = .next (s.setCore c
      { k.past 1 with slots := k.slots.set w.rd.toNat words })) ∧
    (chainOk words = false → exec (.chainLd c w) s = .next ((s.advance c 1).taskFault c cIllegal))

/-- An EPI that passes its checks and opens no collective operation (R35, R123): no byte of memory changes before END
where no deferred area is used, outputs are only added to those held, and the scalar, vector and tensor registers and
the chain slots stay. Without a chain program it holds each accumulator of
its region rounded once (R70, R131). -/
def Obligations.EpiHoldsItsOutputs : Prop :=
  ∀ (c : Nat) (w : EpiWord) (s : State) (t : TileCtx),
    s.Issues c 2 t → epiOk w = true → t.Heeds [w.srb.toNat, w.salt.toNat, w.layout.toNat] →
    w.send.toNat < 2 → t.splitK = 1 → s.Clean →
    let k := s.core c
    let w' := epiInForce w t
    let p := epiPlan k w'
    k.accHeld = false → (p.reads k w').any (fun r => s.blocked c r.1 r.2) = false → s.epiCode c k t w' p = 0 →
    ∃ u, exec (.epi c w) s = .next u ∧ (u.core c).pc = (k.past 2).pc ∧ k.held <+: (u.core c).held ∧
      (u.core c).s = k.s ∧ (u.core c).v = k.v ∧ (u.core c).t = k.t ∧ (u.core c).slots = k.slots ∧
      (w.defer = 0 → ∀ x, u.byte x = s.byte x) ∧
      (w.slot = 7 → w.defer = 0 → w.twopass = 0 → w.qgran = 0 → w.statout = 0 → w.send = 0 → w.rnd.toNat < 2 →
        let accs := p.lay.read k w.atile.toNat
        let rd : Rounding := { mode := if w.rnd = 1 then .rtz else .rne }
        (u.core c).held = k.held ++ (s.holdRect t.ward p.out p.m 0 p.ntot fun r col =>
          (roundWide p.out.fmt rd w.sat (accs.getD (r * p.ntot + col) {}).unchained.1).1).2)

/-- KVA, SCATTER and PAGE.TRUNC over sound memory (R181, R182, R183, R185, R187). A KVA of a split K leaves a partial and
writes no page. One whose rows go into one page that can take them without another frame stores each row, here the
accumulators rounded once to the tail format, into its slot and raises the entry's FILL; rows that are there already are
skipped; either way the KVA is remembered as having written its table, up to the position of its last row (R196, R216). A
SCATTER of a waiting buffer does the same with the buffer's rows, takes the buffer off the entry's count and marks it done;
one whose page must wait waits in the instruction; a buffer that does not wait is left alone. PAGE.TRUNC cuts every entry of
its table that reaches beyond the position, waits where one that it must cut is in use, and from position 1,048,576 on does
nothing (R322). -/
def Obligations.PageInstructions : Prop :=
  ∀ (c : Nat) (s : State) (t : TileCtx), s.Clean → s.Wf →
    let k := s.core c
    let keeps := fun (u : State) (n : Nat) => (u.core c).phase = .running ∧ (u.core c).pc = (k.past n).pc ∧
      (u.core c).s = k.s ∧ (u.core c).t = k.t ∧ (u.core c).slots = k.slots ∧ (u.core c).v = k.v
    let waits := fun (u : State) (x : Waiting) => (u.core c).phase = .waiting ∧ (u.core c).wait = some x ∧
      (u.core c).pc = k.pc % 2 ^ 64 ∧ (u.core c).s = k.s ∧ (u.core c).t = k.t ∧ (u.core c).v = k.v
    let entryAt := fun (ad x : Nat) => s.entCode t.ward ad = 0 ∧ s.home t.ward ad = some x ∧ s.home t.ward (ad + 8) = some (x + 8)
    let frameAt := fun (tab : KvTab) (e : KvEnt) (f : Nat) => ∀ i < 32 * tab.d,
      s.locate t.ward (e.frame + i) true = (0, .phys (f + i)) ∧ inHbm (f + i) = inHbm f
    let takes := fun (tab : KvTab) (e : KvEnt) (r : PageRows) => e.held = true ∧ tab.older e r.j = false ∧ e.fill = r.lo ∧
      e.fmtCode = (if tab.int then tab.tailCode else tab.fmtCode) ∧ (tab.int = true → r.hi ≠ 15)
    (∀ (w : KvaWord) (bs : List Byte) (tab : KvTab), s.Issues c (wordsOfExt w.ext) t → kvaOk w = true →
      t.Heeds [w.norm.srb.toNat, w.norm.salt.toNat, w.norm.layout.toNat] → k.accHeld = false →
      (let prog := chainStages (k.slots.getD w.slot.toNat [])
       (tensorUses k (prog.1 ++ prog.2.1) 1 1 0).any fun u => s.blocked c u.d.base u.d.span) = false →
      s.vread t.ward (k.adr w.ra.toNat) 64 = (s, bs, 0) →
      let a := Append.ofBytes bs
      let p := kvaPlan k w.norm tab a
      s.kvTab t.ward a.w0 = (s, tab, 0) → s.kvaCode c k w.norm p = 0 →
      let ad := tab.entry a.layer a.head a.kind (a.pos0 / 16)
      let e := s.ent t.ward ad
      let r := pageRows a.pos0 a.n (a.pos0 / 16)
      let noted := fun (u : State) => keeps u (wordsOfExt w.ext) ∧ (u.core c).touched.head? = some a.w0 ∧
        ∀ x, s.req t.req = some x → ∃ y, u.req t.req = some y ∧ y.lastPos = max x.lastPos (a.pos0 + a.n - 1)
      (1 < t.splitK → ∃ u x, exec (.kva c w) s = .next u ∧ keeps u (wordsOfExt w.ext) ∧ u.mem = s.mem ∧
        (u.core c).partials = k.partials ++ [x] ∧ x.kp = t.kp ∧ x.block = bs) ∧
      (t.splitK ≤ 1 → a.pos0 % 16 + a.n ≤ 16 →
        (s.entCode t.ward ad = 0 → tab.fate e r 0 = .skip → ∃ u, exec (.kva c w) s = .next u ∧ noted u ∧ u.mem = s.mem) ∧
        (∀ x f, entryAt ad x → frameAt tab e f → (x + 16 ≤ f ∨ f + 32 * tab.d ≤ x) → takes tab e r → tab.fate e r 0 = .ready →
          ∃ u, exec (.kva c w) s = .next u ∧ noted u ∧ (u.ent t.ward ad).fill = r.hi + 1 ∧
            (∀ z, (z < x ∨ x + 16 ≤ z) → (z < f + 2 * tab.d * r.lo ∨ f + 2 * tab.d * (r.hi + 1) ≤ z) → u.byte z = s.byte z) ∧
            (w.slot = 7 → a.rot = false → w.norm.rnd.toNat < 2 → ∀ i < a.n * tab.d,
              u.peekN (f + 2 * tab.d * r.lo + 2 * i) 2 = (roundWide tab.tail { mode := if w.norm.rnd = 1 then .rtz else .rne } true
                ((p.lay.read k w.atile.toNat).getD i {}).unchained.1).1)))) ∧
    (∀ (w : MoveWord) (bs : List Byte), s.Issues c 1 t → w.ok false false false false = true →
      let buf := k.adr w.ra.toNat
      s.vread t.ward buf 64 = (s, bs, 0) →
      (wordAt bs 4 % 256 ≠ 1 → exec (.scatter c w) s = .next (s.setCore c (k.past 1))) ∧
      ∀ (tab : KvTab) (data : List Byte) (b : Nat), wordAt bs 4 % 256 = 1 →
        let a := Append.ofBytes bs
        s.kvTab t.ward a.w0 = (s, tab, 0) → a.layer < tab.layers → a.head < tab.heads → (tab.ring = true ∨ a.pos0 + a.n ≤ 16 * tab.pages) →
        s.vread t.ward (buf + 64) (a.n * tab.d * 2) = (s, data, 0) → (∀ i < 64, s.locate t.ward (buf + i) true = (0, .phys (b + i))) →
        (∀ i < 64, inHbm (b + i) = inHbm b) → a.w3 = 1 → a.pos0 % 16 + a.n ≤ 16 →
        let ad := tab.entry a.layer a.head a.kind (a.pos0 / 16)
        let e := s.ent t.ward ad
        let r := pageRows a.pos0 a.n (a.pos0 / 16)
        (s.entCode t.ward ad = 0 → tab.fate e r 1 = .wait → ∃ u, exec (.scatter c w) s = .next u ∧ waits u (.scatter tab.addr)) ∧
        ∀ x, entryAt ad x → (x + 16 ≤ b ∨ b + 64 ≤ x) →
          let done := fun (u : State) => keeps u 1 ∧ u.peekN (b + 24) 8 = 0 ∧ u.byte (b + 32) = 2 ∧
            (u.ent t.ward ad).pcount = e.pcount - 1
          (tab.fate e r 1 = .skip → ∃ u, exec (.scatter c w) s = .next u ∧ done u ∧ (u.ent t.ward ad).fill = e.fill) ∧
          ∀ f, frameAt tab e f → (x + 16 ≤ f ∨ f + 32 * tab.d ≤ x) → (b + 64 ≤ f ∨ f + 32 * tab.d ≤ b) → takes tab e r →
            tab.fate e r 1 = .ready → ∃ u, exec (.scatter c w) s = .next u ∧ done u ∧ (u.ent t.ward ad).fill = r.hi + 1 ∧
              ∀ i < a.n * tab.d * 2, u.byte (f + 2 * tab.d * r.lo + i) = data.getD i 0) ∧
    (∀ w : MoveWord, s.Issues c 1 t → w.ok false true false false = true →
      let pos := (k.sreg w.rb.toNat).toNat
      (2 ^ 20 ≤ pos → exec (.pageTrunc c w) s = .next (s.setCore c (k.past 1))) ∧
      ∀ (tab : KvTab), pos < 2 ^ 20 → s.kvTab t.ward (k.adr w.ra.toNat) = (s, tab, 0) →
        let ent := fun i => s.ent t.ward (tab.entries + 16 * i)
        let inUse := fun i => (ent i).refs ≠ 0 ∨ (ent i).state = pExporting
        (∀ i < tab.count, s.entCode t.ward (tab.entries + 16 * i) = 0) →
        ((∀ i < tab.count, truncHits pos (ent i) = true → inUse i) → (∃ i, i < tab.count ∧ truncHits pos (ent i) = true) →
          ∃ u, exec (.pageTrunc c w) s = .next u ∧ waits u (.trunc tab.addr) ∧ u.mem = s.mem) ∧
        ∀ (x h : Nat), (∀ i < tab.count, entryAt (tab.entries + 16 * i) (x + 16 * i)) → s.home t.ward (tab.addr + 24) = some h →
          (h + 8 ≤ x ∨ x + 16 * tab.count ≤ h) → s.exporter.bindings = [] →
          (∀ i < tab.count, truncHits pos (ent i) = true → ¬inUse i ∧ (ent i).held = true ∧ truncKeep pos (ent i) ≠ 0 ∧
            (tab.int = true → (ent i).fmtCode ≠ tab.fmtCode)) →
          ∃ u, exec (.pageTrunc c w) s = .next u ∧ keeps u 1 ∧
            (∀ i < tab.count, (u.ent t.ward (tab.entries + 16 * i)).fill =
              if truncHits pos (ent i) then truncKeep pos (ent i) else (ent i).fill) ∧
            ∀ z, (z < x ∨ x + 16 * tab.count ≤ z) → (z < h ∨ h + 8 ≤ z) → u.byte z = s.byte z)

/-! ### Moves and atomics -/

/-- A MOV that passes its checks, of source and destination that lie in memory of this node in one piece each, sound and
apart, copies every byte and changes no other (R246, R247); MOV.SIG then adds its increment to a signal word of this
node outside the moved data (R51, R249). -/
def Obligations.LocalMovesCopy : Prop :=
  ∀ (c : Nat) (w : MoveWord) (s : State) (t : TileCtx) (a b : Nat), s.Issues c 1 t → s.Wf → s.Clean →
    let k := s.core c
    let r := movOperands k w
    let sig := k.here (k.sreg w.rd.toNat).toNat
    s.rowsHeld c t.ward [r] = false → 0 < r.len → r.len ≤ 2 ^ 30 → s.moveCode t.ward [r] = 0 →
    (∀ i < r.len, s.locate t.ward (r.src + i) false = (0, .phys (a + i)) ∧
      s.locate t.ward (r.dst + i) true = (0, .phys (b + i))) →
    (a + r.len ≤ b ∨ b + r.len ≤ a) → (∀ i < r.len, inHbm (b + i) = inHbm b) →
    (w.ok false true true false = true →
      ∃ u, exec (.mov c w) s = .next u ∧ (∀ i < r.len, u.byte (b + i) = s.byte (a + i)) ∧
        (∀ x, (x < b ∨ b + r.len ≤ x) → u.byte x = s.byte x) ∧ u.core c = k.past 1 ∧ u = { s with cores := u.cores, mem := u.mem }) ∧
    (∀ l, w.ok true true true true = true → w.imm ≠ 0 → s.movSigCode t.ward r sig = 0 →
      s.signalPlace t.ward sig = (0, .phys l) → l % 8 = 0 → (l + 8 ≤ a ∨ a + r.len ≤ l) → (l + 8 ≤ b ∨ b + r.len ≤ l) → k.ops = [] →
      ∃ u, exec (.movSig c w) s = .next u ∧ (∀ i < r.len, u.byte (b + i) = s.byte (a + i)) ∧
        u.peekN l 8 = (s.peekN l 8 + w.imm.toNat) % 2 ^ 64 ∧
        (∀ x, (x < b ∨ b + r.len ≤ x) → (x < l ∨ l + 8 ≤ x) → u.byte x = s.byte x) ∧ u.core c = k.past 1)

/-- A descriptor move whose checks pass and whose rows lie in memory of this node completes: MOV.S of an unlocked task moves
the rows of its descriptor, inner dimension first; MOV.G, of locked and unlocked tasks, those that its index list names,
skipping entries of 0xFFFF_FFFF (R246, R247, Table 9.11). No byte changes but those of the destinations, and where rows lie
apart every destination holds its source's bytes. MOV.S of a locked task is ILLEGAL_INSTRUCTION. -/
def Obligations.DescriptorMoves : Prop :=
  ∀ (c : Nat) (w : MoveWord) (s : State) (t : TileCtx) (f g : Nat → Nat), s.Issues c 1 t → s.Clean → s.Wf →
    w.ok false false false false = true →
    let k := s.core c
    let a := k.here (k.sreg w.ra.toNat).toNat
    let d : MoveDesc := ({ w := (List.range 8).map fun i => s.peekN (a % 2 ^ 52 + 8 * i) 8 } : MoveDesc).at_ k
    let idx := (List.range d.n1).map fun i => s.peekN (d.list % 2 ^ 52 + 4 * i) 4
    let here := fun (rows : List MoveRow) => ∀ p ∈ rows.flatMap MoveRow.pieces,
      s.locate t.ward p.src false = (0, .phys (f p.src)) ∧ s.locate t.ward p.dst true = (0, .phys (g p.dst)) ∧
        ∀ i < p.len, inHbm (g p.dst + i) = inHbm (g p.dst)
    let apart := fun (x m y n : Nat) => x + m ≤ y ∨ y + n ≤ x
    let moves := fun (i : Instr) (rows : List MoveRow) =>
      let ps := rows.flatMap MoveRow.pieces
      ∃ u, exec i s = .next u ∧ u.core c = k.past 1 ∧ u = { s with cores := u.cores, mem := u.mem } ∧
        (∀ x, (∀ p ∈ ps, x < g p.dst ∨ g p.dst + p.len ≤ x) → u.byte x = s.byte x) ∧
        (ps.Pairwise (fun p q => apart (g p.dst) p.len (g q.dst) q.len) →
          (∀ p ∈ ps, ∀ q ∈ ps, apart (g p.dst) p.len (f q.src) q.len) →
          ∀ p ∈ ps, ∀ i < p.len, u.byte (g p.dst + i) = s.byte (f p.src + i))
    a % 64 = 0 → s.own c a 64 = true → s.blocked c a 64 = false → bits (d.word 2) 15 1 = 0 →
    (t.unlocked = true → s.rowsHeld c t.ward d.rowsS = false → d.strideCode false = 0 → s.moveCode t.ward d.rowsS = 0 →
      here d.rowsS → moves (.movS c w) d.rowsS) ∧
    (t.unlocked = false → exec (.movS c w) s = .next ((s.advance c 1).taskFault c cIllegal)) ∧
    (d.n2 = 1 → d.n1 ≤ 4096 → d.strideCode true = 0 → s.own c d.list (4 * d.n1) = true →
      s.blocked c d.list (4 * d.n1) = false → s.rowsHeld c t.ward (d.rowsG idx) = false →
      (∀ x ∈ idx, x = 0xFFFFFFFF ∨ x < d.word 4) → s.moveCode t.ward (d.rowsG idx) = 0 →
      here (d.rowsG idx) → moves (.movG c w) (d.rowsG idx))

/-- An ATOM on a sound word of this node performs its operation on the word at once and writes the old value to RD, but
for ADD (R249, R53); on a word of another node it sends one ATOMIC request there, after which exactly that operation is
on its way, RD waiting for its answer. -/
def Obligations.AtomsReadModifyWrite : Prop :=
  ∀ p ∈ atomTable, ∀ (c : Nat) (w : MoveWord) (s : State) (t : TileCtx), s.Issues c 1 t → s.Wf →
    let k := s.core c
    let a := k.here (k.sreg w.ra.toNat).toNat
    let x := (k.sreg w.rb.toNat).toNat
    let y := (k.sreg w.rc.toNat).toNat
    w.rsv = 0 → w.ext = false → w.aop.toNat = p.2.1 → w.imm = 0 → (p.2.1 = 0 → w.rd = 0) → (p.2.1 ≠ 3 → w.rc = 0) →
    s.blocked c a 8 true = false → s.landsAt c t.ward a true = false → a % 8 = 0 → ¬(a / 2 ^ 52 = s.node ∧ inReduction a = true) →
    (∀ l, s.locate t.ward a true = (0, .phys l) → (s.locate t.ward a false).1 = 0 → l % 8 = 0 → s.sound l 8 = true → s.sound (l / 64 * 64) 64 = true →
      ∃ u, exec (p.1 c w) s = .next u ∧ u.peekN l 8 = p.2.2 (s.peekN l 8) x y ∧
        (∀ z, (z < l ∨ l + 8 ≤ z) → u.byte z = s.byte z) ∧
        u.core c = (if p.2.1 = 0 then k.past 1 else (k.past 1).setS w.rd.toNat (BitVec.ofNat 64 (s.peekN l 8)))) ∧
    (∀ n l v, s.locate t.ward a true = (0, .remote n l) →
      ((s.advance c 1).send { dest := n, op := opAtomic, ward := t.ward, len := 1, addr := l, data := unitOf [p.2.1, x, y] }).2 = some v →
      ∃ u, exec (p.1 c w) s = .next u ∧ (∀ z, u.byte z = s.byte z) ∧
        let rd := if p.2.1 = 0 then 0 else w.rd.toNat
        let op : RemoteOp := { pseq := v, node := n, op := opAtomic, rd := rd, len := 8, task := (t.req, t.task), tile := t.idx, ord := k.issued + 1 }
        u.core c = { k.past 1 with ops := k.ops ++ [op] })

/-! ### Attention -/

/-- ATTN, ATTN.W and ATTN.MRG over sound memory, where their checks pass and what they read is mapped (R151, R164, R165,
R192): an ATTN whose walk is validated, beforehand or by itself, completes; outputs are only added to those held, the
validation is used up, and the scalar, vector and tensor registers and the chain slots stay. ATTN.MRG holds the rows of its
NPART parts, merged in ascending order and divided once. -/
def Obligations.AttentionInstructions : Prop :=
  ∀ (c : Nat) (w : AttnWord) (s : State) (t : TileCtx), s.Issues c 2 t → s.Clean →
    t.Heeds [w.form.toNat, w.shape.toNat, w.srb.toNat, w.salt.toNat] →
    let k := s.core c
    let s1 := s.advance c 2
    let keeps := fun (u : State) => (u.core c).phase = .running ∧ (u.core c).pc = (k.past 2).pc ∧ k.held <+: (u.core c).held ∧
      (u.core c).s = k.s ∧ (u.core c).t = k.t ∧ (u.core c).v = k.v ∧ (u.core c).slots = k.slots
    (∀ (wide : Bool) (qpos : List Nat) (fills : List (Nat × Nat)) (s2 : State) (x : Walk) (tab : KvTab),
      let p := s.attnPlan k t w wide
      s.attnHeld c w wide = false → attnOk w wide = true → s.attnCode c t w p = 0 →
      s1.queryPos t p.acb (p.m / p.acb.g) = (s1, qpos, 0) →
      ((k.walked = some (p.walk, fills) ∧ s2 = s1) ∨ (k.walked = none ∧ s1.validate c t p.walk p.d = (s2, .ok fills))) →
      let s3 := s2.clearHeader t p
      (s3.readWalk t.ward p.walk p.d).2 = (x, tab, 0) →
      (∀ q ∈ x.entries tab, let e := s3.ent t.ward q.2
        ∀ i < 16 * tab.d * ((Fmt.ofCode e.fmtCode).getD .bf16).bits / 8, (s.locate t.ward (e.frame + i) false).1 = 0) →
      (p.acb.segment = true → let ends := qpos ++ [x.first, x.first + x.count - 1]
        ∀ lo ∈ ends, ∀ hi ∈ ends, ∀ pos, lo ≤ pos → pos ≤ hi → ∀ b < 2, (s.locate t.ward (p.acb.segtab + 2 * pos + b) false).1 = 0) →
      ∃ u, exec (if wide then .attnW c w else .attn c w) s = .next u ∧ keeps u ∧ (u.core c).walked = none) ∧
    (let out := k.desc w.out.toNat
     let area := k.adr w.marea.toNat
     mrgOk w = true → k.accHeld = false → s.blocked c area 64 = false →
     out.ok = true → attnFmt out = true → out.cols % 16 = 0 → 16 ≤ out.cols → out.cols ≤ 256 → w.marea ≠ 0 → area % 64 = 0 →
     s.attnTargets c t w out out.rows out.cols (k.adr w.stat.toNat) (k.adr w.sig.toNat) = 0 →
     (∀ i < 64 + w.npart.toNat * partBytes out.rows out.cols, (s.locate t.ward (area + i) false).1 = 0) →
      let parts := (s.readParts t.ward area out.rows out.cols w.npart.toNat).2.1
      ∃ u, exec (.attnMrg c w) s = .next u ∧ keeps u ∧
        (w.send = 0 → w.stat = 0 → w.rnd = 0 → (u.core c).held = k.held ++ (s1.holdRect t.ward out out.rows 0 out.cols fun r i =>
          (((mergeParts out.rows out.cols parts).rows.getD r {}).final out.fmt i {}).1).2))

/-! ### Tasks, tiles and requests -/

/-- END (R35, R91, R137): an open deferred area faults the task with DESCRIPTOR, flags of a task that traps with
ARITH_TRAP; an operation of the tile on its way keeps END where it is. Else what the tile holds is released, here a block of data and then a signal of this node; no other byte
changes, the core is idle with its registers clear, and the tile joins the released ones of its task with its status. -/
def Obligations.EndReleasesTheTile : Prop :=
  ∀ (c : Nat) (w : ScalarWord) (s : State) (t : TileCtx), s.Issues c 1 t → w.ok false false false false false = true →
    let k := s.core c
    (s.tileBusy c t = true → exec (.endTile c w) s = .next s) ∧ (s.tileBusy c t = false →
    (k.deferred.isSome = true → exec (.endTile c w) s = .next ((s.advance c 1).taskFault c cDescriptor)) ∧
    (k.deferred = none → t.trap = true → k.status % 8 ≠ 0 →
      exec (.endTile c w) s = .next ((s.advance c 1).taskFault c cArithTrap)) ∧
    (∀ (a l inc : Nat) (data : List Byte), k.deferred = none → (t.trap = false ∨ k.status % 8 = 0) →
      k.merges = [] → k.refs = [] → k.touched = [] → s.Wf → s.Clean →
      k.held = [.write (.phys a) data false, .signal (.phys l) inc] →
      (∀ i < data.length, inHbm (a + i) = inHbm a) → l % 8 = 0 → (l + 8 ≤ a ∨ a + data.length ≤ l) →
      ∃ u, exec (.endTile c w) s = .next u ∧ (∀ i < data.length, u.byte (a + i) = data.getD i 0) ∧
        u.peekN l 8 = (s.peekN l 8 + inc) % 2 ^ 64 ∧
        (∀ x, (x < a ∨ a + data.length ≤ x) → (x < l ∨ l + 8 ≤ x) → u.byte x = s.byte x) ∧
        u.core c = { excTask := k.excTask, ops := k.ops, issued := k.issued + 1, engines := k.tags } ∧
        (∀ j, j ≠ c → u.core j = s.core j) ∧
        ∀ y, s.task t.req t.task = some y → ∃ z, u.task t.req t.task = some z ∧
          z.released = t.idx :: y.released ∧ z.status = Smap.put 0 y.status t.idx k.status ∧
          (k.partials = [] → z.parts = y.parts)))

/-- TASK_DISPATCH reads a waiting task's descriptor and checks it (R31 to R33): a task that breaks no rule and names
no start signal is dispatched with its tiles from TILE_FIRST on and its unlock state fixed (R62); one that breaks a
rule faults with CONTRACT or DESCRIPTOR, and the request's tasks not yet ended are cancelled (R54). START_SIGNAL_MET
dispatches a task once the word has reached START_VALUE, and changes nothing before (R37). TILE_PULL (R34, R39, Table
2.6): the core begins the lowest tile that the task has to give: the tile leaves the task, the sequencer stands at
STREAM, t0 to t31 and s1 to s58 hold the parameter block, s59 to s63 the tile's indices, and accumulators, outputs and
status are clear. No other core changes. -/
def Obligations.TasksAndTiles : Prop :=
  (∀ (s : State) (r t : Nat) (x : Request) (y : Task), s.req r = some x → x.tasks[t]? = some y → s.serves x t = true →
      y.phase = .waiting → s.Clean →
      let dispatched := fun (u : State) (y : Task) => ∃ z, u.task r t = some z ∧ z.phase = .dispatched ∧ z.desc = y.desc ∧
        z.unlocked = s.unlockedFor x.ward ∧ z.nextTile = y.tileFirst ∧ ∀ j, j ≠ t → u.task r j = s.task r j
      let y1 := { y with read := true, desc := wordsIn (s.vread x.ward y.addr 64).2.1 }
      (y.read = false → (s.vread x.ward y.addr 64).2.2 = 0 → s.taskCode y1 = 0 → y1.startSig = 0 →
        ∃ u, exec (.taskDispatch r t) s = .next u ∧ dispatched u y1) ∧
      (y.read = false → (s.vread x.ward y.addr 64).2.2 = 0 → s.taskCode y1 ≠ 0 →
        ∃ u, exec (.taskDispatch r t) s = .next u ∧
          (∃ z, u.task r t = some z ∧ z.phase = .faulted ∧ z.fault = s.taskCode y1) ∧
          ∀ j w, j ≠ t → s.task r j = some w → (w.phase = .waiting ∨ w.phase = .dispatched) →
            u.task r j = some { w with phase := .cancelled }) ∧
      (∀ a, y.read = true → y.startSig ≠ 0 → s.waitPlace x.ward y.startSig = (0, .phys a) →
        (y.startValue ≤ s.peekN a 8 → ∃ u, exec (.startSignalMet r t) s = .next u ∧ dispatched u y) ∧
        (s.peekN a 8 < y.startValue → exec (.startSignalMet r t) s = .next s))) ∧
  (∀ (c r t : Nat) (s : State) (x : Request) (y y' : Task) (i : Nat), s.req r = some x → x.tasks[t]? = some y →
      s.serves x t = true → y.phase = .dispatched → s.takesTile c x.ward = true → c < s.cores.length → s.Clean →
      y.pull = some (i, y') → (s.vread x.ward y.table 1528).2.2 = 0 →
      let bs := (s.vread x.ward y.table 1528).2.1
      let at8 := fun n => BitVec.ofNat 64 (ofBytes ((bs.drop (1024 + 8 * (n - 1))).take 8))
      let e := y.ctx x.ward r t i
      ∃ u, exec (.tilePull c r t) s = .next u ∧ u.task r t = some y' ∧ (∀ m ∈ y.returned, i ≤ m) ∧
        (y.returned = [] → i = y.nextTile ∧ y'.nextTile = y.nextTile + 1) ∧ (∀ j, j ≠ c → u.core j = s.core j) ∧
        let k := u.core c
        let seat := (s.node * 2 ^ 52 + coreAddr c) / 2 ^ 21
        k.phase = .running ∧ k.tile = some { e with home := seat, seat := seat } ∧ k.pc = y.stream ∧ k.status = 0 ∧ k.held = [] ∧ k.acc = [] ∧ k.v = [] ∧
        (∀ n < 32, k.treg n = BitVec.ofNat 256 (ofBytes ((bs.drop (32 * n)).take 32))) ∧
        (∀ n, 1 ≤ n → n < 59 → k.sreg n = at8 n) ∧
        [k.sreg 59, k.sreg 60, k.sreg 61, k.sreg 62, k.sreg 63] =
          [e.idx, e.idx % y.splitK, e.idx / y.splitK % y.gridN, e.idx / y.splitK / y.gridN % y.gridM,
            e.idx / y.splitK / (y.gridN * y.gridM)].map (BitVec.ofNat 64))

/-- SPLIT_K_COMBINE (R36): once every part of output tile q is released, its parts are combined and are parts no more. Parts
of one EPI without chain, deferral, quantisation or statistics, of a task that does not trap, over sound memory: the sums of
the parts' accumulators, joined in ascending kp and each rounded once, reach OUT, here one range of this node, no other byte
changes, and the task goes on. -/
def Obligations.SplitPartsCombine : Prop :=
  ∀ (r t q : Nat) (s : State) (x : Request) (y : Task), s.req r = some x → x.tasks[t]? = some y → y.phase = .dispatched →
    (∃ p ∈ y.parts, p.1 = q) → (∀ i ∈ y.tilesOf q, i ∈ y.released) →
    (∃ u, exec (.splitKCombine r t q) s = .next u ∧
      ∃ z, u.task r t = some z ∧ (∀ p ∈ z.parts, p.1 ≠ q) ∧ q ∈ z.combined) ∧
    ∀ (ps : List Partial) (p : Partial) (w : EpiWord) (b : Nat) (data : List Byte), s.Clean → s.Wf →
      y.partsOf q = ps.map (fun x => [x]) → ps.getLast? = some p → p.core < s.cores.length → p.kind = .epi w →
      let ctx := y.ctx x.ward r t ((y.tilesOf q).getLastD 0)
      let pl := epiPlan (p.seat ctx { tile := some ctx }) w
      let job := (joinJobs (ps.map (·.job))).1
      let rd : Rounding := { mode := if w.rnd = 1 then .rtz else .rne }
      ctx.trap = false → w.slot = 7 → p.job.slotted = false → w.defer = 0 → w.twopass = 0 → w.qgran = 0 → w.statout = 0 → w.send = 0 →
      w.rnd.toNat < 2 → job.cols = pl.ntot →
      (s.holdRect x.ward pl.out pl.m 0 pl.ntot fun i col =>
        (roundWide pl.out.fmt rd w.sat (job.acc.getD (i * pl.ntot + col) {}).unchained.1).1).2 = [.write (.phys b) data false] →
      (∀ i < data.length, inHbm (b + i) = inHbm b) →
      ∃ u, exec (.splitKCombine r t q) s = .next u ∧ (∀ i < data.length, u.byte (b + i) = data.getD i 0) ∧
        (∀ z, (z < b ∨ b + data.length ≤ z) → u.byte z = s.byte z) ∧
        ∃ z, u.task r t = some z ∧ z.phase = .dispatched ∧ z.fault = y.fault ∧ (∀ p ∈ z.parts, p.1 ≠ q) ∧ q ∈ z.combined

/-- TASK_COMPLETE (R37): a task whose tiles are all released and whose operations are all complete is complete, and 1
is added to its done signal word. REQUEST_COMPLETE (R54): with every task ended and nothing of it running, the request
waits for its completion entry, whose status is the fault of the faulted task with the lowest TASK_ID, else 0.
COMPLETION_ENTRY_WRITE (R332, R334, Table 13.6): the oldest completion of a queue leaves as one 32-byte write to the next
place of the completion ring, at once unless its port does not send, and the request it ends is gone; a ring without room
holds it back. -/
def Obligations.TasksAndRequestsComplete : Prop :=
  (∀ (r t : Nat) (s : State) (x : Request), s.req r = some x →
      (∀ y, x.tasks[t]? = some y → y.phase = .dispatched → y.allReleased = true → s.taskBusy r t = false →
        let s1 := s.modTask r t fun z => { z with phase := .complete }
        (y.doneSig = 0 → exec (.taskComplete r t) s = .next s1) ∧
        (∀ a, y.doneSig ≠ 0 → s.signalPlace x.ward y.doneSig = (0, .phys a) → a % 8 = 0 → s.Clean → s.Wf →
          ∃ u, exec (.taskComplete r t) s = .next u ∧ u.peekN a 8 = (s.peekN a 8 + 1) % 2 ^ 64 ∧
            (∀ z, (z < a ∨ a + 8 ≤ z) → u.byte z = s.byte z) ∧ u = { s1 with mem := u.mem })) ∧
      (∀ q, x.phase = .running → (∀ y ∈ x.tasks, y.phase = .complete ∨ y.phase = .faulted ∨ y.phase = .cancelled) →
        s.reqBusy r = false → x.binding = none → x.noCompletion = false → s.gotar x.qpn = some q →
        ∃ u v e, exec (.requestComplete r) s = .next u ∧ u.req r = some { x with phase := .ready } ∧
          u.gotar x.qpn = some v ∧ v.waiting = q.waiting ++ [e] ∧ e.tag = x.tag ∧ e.sq = x.sq ∧ e.req = some r ∧
          ((∀ y ∈ x.tasks, y.phase ≠ .faulted) → e.status = 0) ∧
          ∀ y ∈ x.tasks, y.phase = .faulted → (∀ z ∈ x.tasks, z.phase = .faulted → z ≠ y → y.taskId < z.taskId) →
            e.status = y.fault ∧ e.faultTask = y.taskId ∧ e.faultTile = y.faultTile)) ∧
  (∀ (qpn : Nat) (s : State) (q : Gotar) (p : Qp) (e : Completion) (es : List Completion), s.gotar qpn = some q →
      s.qp qpn = some p → p.state = .rts → s.linkUp 0 = true → q.heldEntries = [] → q.rewrite = 0 →
      q.waiting = e :: es → e.notice = false →
      (q.ec ≤ (q.written + 2 ^ 32 - q.cqHead % 2 ^ 32) % 2 ^ 32 → exec (.completionEntryWrite qpn) s = .next s) ∧
      ((q.written + 2 ^ 32 - q.cqHead % 2 ^ 32) % 2 ^ 32 < q.ec →
        ∃ u v m, exec (.completionEntryWrite qpn) s = .next u ∧ u.gotar qpn = some v ∧ v.waiting = es ∧
          v.written = (q.written + 1) % 2 ^ 32 ∧ u.host.out = s.host.out ++ (if s.sends p.port = true ∧ p.unsent = 0 then [(qpn, m)] else []) ∧
          (u.qp qpn).map (·.unacked) = some (p.unacked ++ [m]) ∧ m.kind = 0 ∧ m.addr = q.cqAddr + q.written % q.ec * 32 ∧ m.rkey = q.cqRkey ∧ m.data.length = 32 ∧
          (let w0 := wordAt m.data 0
           bits w0 63 32 = e.tag % 2 ^ 32 ∧ bits w0 31 16 = e.sq % 2 ^ 16 ∧ bits w0 15 8 = e.status % 2 ^ 8 ∧
           bits w0 6 6 = (if q.written / q.ec % 2 = 0 then 1 else 0)) ∧
          (∀ r, e.req = some r → u.req r = none) ∧ ∀ r, e.req ≠ some r → u.req r = s.req r))

/-! ### Clusters and steps -/

/-- PLAN_POINT (R40): once in a step, a die's clusters are assigned for the next one. No ward gets more than it claims or
than its CL_MAX (at least CL_MIN, as policies keep it) allows on the die, by the limits that stood before a policy changed in
the same cycle (R361), no cluster that is excluded is given away, the claims are used up, and neither a second plan in the
same step nor one before the plan point (R387) changes anything. CLAIM adds a claim for the next plan. -/
def Obligations.PlanKeepsToClaims : Prop :=
  ∀ (die : Nat) (s : State), die < 4 → s.dies.length = 4 → s.clusters.length = 24 → s.sclk = true → s.isReady = true →
    (∀ w, (s.planLimits w).1 ≤ (s.planLimits w).2) →
    (s.latch.old = [] → ∀ w, s.planLimits w = (s.rd .wrdPolicy_CL_MIN w, s.rd .wrdPolicy_CL_MAX w)) ∧
    (die ∈ s.latch.planned ∨ s.latch.ran < s.rd .schPlan_PLAN_POINT die * s.latch.length / 256 → exec (.planPoint die) s = .next s) ∧
    (die ∉ s.latch.planned → s.rd .schPlan_PLAN_POINT die * s.latch.length / 256 ≤ s.latch.ran → ∃ u, exec (.planPoint die) s = .next u ∧ u.latch.planned = die :: s.latch.planned ∧
      (u.die die).claims = [] ∧ (∀ g, dieOf g ≠ die → u.cluster g = s.cluster g) ∧
      (∀ g, dieOf g = die → (u.cluster g).ward = (s.cluster g).ward ∧
        ((s.cluster g).excluded = true → (u.cluster g).next = some none)) ∧
      ∀ w, let n := ((List.range 6).filter fun j => decide ((u.cluster (6 * die + j)).next = some (some w))).length
        n ≤ (((s.die die).claims.filter fun x => decide (x.1 = w)).map (·.2)).foldl (· + ·) 0 ∧
        n ≤ share (s.planLimits w).2 w die) ∧
    ∀ w n, s.wardActive w = true → s.deleting w = false →
      exec (.claim die w n) s = .next (s.setDie die { s.die die with claims := (s.die die).claims ++ [(w, n)] })

/-- A handover (R41, R55, R345): PREEMPTION_REQUEST stops the cores of a cluster that changes ward once the boundary is
no further off than the handover lead, and not before; CORE_STOPPED
follows once a core's operations are complete, and CLUSTER_CLEARING leaves every byte of the cluster's memories zero
and every register of its cores clear, with no other byte changed, and takes the cluster from its ward.
SAVE_IMAGE_WRITTEN keeps a stopped core's registers and every byte of its memory in an image of the ward; TASK_RESUME
puts an image's registers and bytes into a core of the ward, which goes on where the image stopped, or waits again
(R56, R57). -/
def Obligations.HandoverSaveAndResume : Prop :=
  (∀ (g : Nat) (s : State), g < 24 → s.cores.length = 192 → s.clusters.length = 24 →
      ((s.cluster g).handover = .planned → s.preemptDue g = false → exec (.preemptionRequest g) s = .next s) ∧
      ((s.cluster g).handover = .planned → s.preemptDue g = true → ∃ u, exec (.preemptionRequest g) s = .next u ∧
        u.cluster g = { s.cluster g with handover := .stopping } ∧
        (∀ c, u.core c = if clusterOf c = g ∧ ((s.core c).phase = .running ∨ (s.core c).phase = .waiting) then
          { s.core c with phase := .stopping } else s.core c) ∧
        u = { s with cores := u.cores, clusters := u.clusters }) ∧
      (∀ c, clusterOf c = g → (s.core c).phase = .stopping →
        ((s.core c).ops = [] → exec (.coreStopped c) s = .next (s.setCore c { s.core c with phase := .stopped })) ∧
        ((s.core c).ops ≠ [] → exec (.coreStopped c) s = .next s)) ∧
      ((s.cluster g).handover = .stopping → (s.cluster g).boundaryPassed = false → s.Clean → s.Wf →
        (∀ c, clusterOf c = g → ((s.core c).phase = .idle ∨ (s.core c).phase = .saved) ∧ (s.core c).ops = []) →
        ∃ u, exec (.clusterClearing g) s = .next u ∧
          u.cluster g = { s.cluster g with ward := none, handover := .cleared, wiped := true } ∧
          (∀ c, u.core c = if clusterOf c = g then {} else s.core c) ∧
          (∀ a, u.byte a = match region a with
            | .core i _ => if clusterOf i = g then 0 else s.byte a
            | .cluster h _ => if h = g then 0 else s.byte a
            | _ => s.byte a))) ∧
  (∀ (c : Nat) (s : State), c < s.cores.length → c < 192 → s.Wf →
      (∀ t, (s.core c).phase = .stopped → (s.core c).tile = some t → s.hasArea t.ward = true →
        ∃ u m, exec (.saveImageWritten c) s = .next u ∧ u.images = s.images ++ [m] ∧ m.ward = t.ward ∧ m.core = s.core c ∧
          (∀ x ∈ s.images, x.id ≠ m.id) ∧ (∀ o < 2 ^ 21, Smap.get 0 m.mem o = s.byte (coreAddr c + o)) ∧
          (∀ x ∈ s.images, x.ward = t.ward → x.area ≠ m.area) ∧
          u.core c = { phase := .saved, engines := (s.core c).tags } ∧ ∀ a, u.byte a = s.byte a) ∧
      (∀ m ∈ s.images, (∀ x ∈ s.images, x.id = m.id → x = m) → s.takesTile c m.ward = true → (s.core c).ops = [] →
        Memory.wf m.mem → (∀ p ∈ m.mem, p.1 < 2 ^ 21) →
        ∃ u, exec (.taskResume c m.id) s = .next u ∧ (∀ x ∈ u.images, x.id ≠ m.id) ∧
          u.core c = m.core.resumeOn s.node c (s.core c).engines ∧
          (u.core c).pc = m.core.pc ∧ (u.core c).s = m.core.s ∧ (u.core c).v = m.core.v ∧ (u.core c).t = m.core.t ∧
          (u.core c).acc = m.core.acc ∧ (u.core c).phase = (if m.core.wait.isSome then .waiting else .running) ∧
          (∀ o < 2 ^ 21, u.byte (coreAddr c + o) = Smap.get 0 m.mem o) ∧
          (∀ a, (a < coreAddr c ∨ coreAddr c + 2 ^ 21 ≤ a) → u.byte a = s.byte a) ∧ ∀ j, j ≠ c → u.core j = s.core j))

/-- The step latch (R384 to R387): a boundary falls when the count reaches the step length and at no other count; it counts
the step, restarts the count and raises STEP_OUT for 16 cycles; an edge of STEP_SYNC is a pull in the last eighth of the step,
a push in the first eighth, coincident in the boundary's own cycle, before or after its declaration, and outside elsewhere. STEP_BOUNDARY_SEEN gives a cluster that is in no handover to the ward planned for it. -/
def Obligations.StepBoundaries : Prop :=
  ∀ s : State, s.latchRuns = true → Registers.wf s.csr →
    let l := s.latch
    let counts := fun (f : Fld) => ∃ u, exec .stepSyncEdge s = .next u ∧ u.rd f = satN f.width (s.rd f + 1)
    (l.since ≠ l.length → exec .stepBoundary s = .next s) ∧
    (l.since = l.length → (∀ w ∈ s.wards, w.deleting = false) →
      ∃ u, exec .stepBoundary s = .next u ∧ u.rd .clkStepStat_STEP_COUNT = (s.rd .clkStepStat_STEP_COUNT + 1) % 2 ^ 32 ∧
        u.latch.since = 0 ∧ u.latch.out = 16 ∧ u.latch.declared = true ∧ u.latch.usedWindow = l.edge ∧
        u.latch.ran = 0 ∧ u.latch.edge = false ∧
        u.latch.length = s.rd .clkStepCfg_LENGTH_US * 400 ∧ u.latch.unseen = List.range 24 ∧ u.cores = s.cores ∧
        u.clusters = s.clusters ∧ u.mem = s.mem) ∧
    (s.flag .clkStepCfg_SYNC_EN = false → exec .stepSyncEdge s = .next s) ∧
    (s.flag .clkStepCfg_SYNC_EN = true → 8 ≤ l.length →
      (l.since = 0 → l.declared = true → l.usedWindow = false → counts .clkStepSyncStat_COINCIDENT) ∧
      (0 < l.since → l.length - l.length / 8 ≤ l.since → l.since < l.length → (∀ w ∈ s.wards, w.deleting = false) →
        counts .clkStepSyncStat_PULLS) ∧
      (0 < l.since → l.declared = true → l.usedWindow = false → l.since < l.length / 8 → counts .clkStepSyncStat_PUSHES) ∧
      (l.since = l.length → l.edge = false → ∃ u, exec .stepSyncEdge s = .next u ∧ u.latch = { l with edge := true } ∧
        u.rd .clkStepSyncStat_COINCIDENT = satN 16 (s.rd .clkStepSyncStat_COINCIDENT + 1)) ∧
      (l.length / 8 ≤ l.since → (l.since < l.length - l.length / 8 ∨ l.length < l.since ∨ (l.since = l.length ∧ l.edge = true)) →
        counts .clkStepSyncStat_OUTSIDE)) ∧
    (∀ g ∈ l.unseen, g < s.clusters.length → (∀ w ∈ s.wards, w.deleting = false) →
      ((s.cluster g).handover = .none ∨ (s.cluster g).handover = .cleared) → (s.cluster g).clears = [] →
      ∃ u, exec (.stepBoundarySeen g) s = .next u ∧
        (u.cluster g).ward = ((s.cluster g).next).getD (s.cluster g).ward ∧ (u.cluster g).next = none ∧
        (u.cluster g).handover = .none ∧ (∀ h, h ≠ g → u.cluster h = s.cluster h) ∧
        u.latch = { l with unseen := l.unseen.erase g } ∧ u.cores = s.cores)

/-! ### Packets of other devices -/

/-- Requests at their target (R25, R51, R53, R249, R250, R262), over sound memory: the whole range
of a request is checked; READ answers with the stored bytes and changes no byte; WRITE stores its data, WRITE_SIGNAL adds its increment, ATOMIC does its operation, each changing
no other byte and answering after it; a READ or WRITE that a check refuses is answered by NAK with its code. Answers
at the issuer (R17, R246, R249, R250), for a core with no signal waiting: each takes exactly the operation it answers
off; READ_DATA lands the bytes asked for at the move's destination and changes no other, ATOMIC_DATA writes the old
value to the register, NAK faults the task with the code it carries. -/
def Obligations.RemoteRequestsAndAnswers : Prop :=
  (∀ (p : Packet) (s : State), s.fclk = true → p.dest = s.node → s.Clean → s.Wf →
      let only := fun (v : State) (a n : Nat) => (∀ x, (x < a ∨ a + n ≤ x) → v.byte x = s.byte x) ∧ v = { s with mem := v.mem }
      (∀ ls, s.targetRange p (64 * p.len) false = (0, ls) → 0 < p.len →
        exec (.read p []) s = .next (s.answer p opReadData (ls.flatMap fun l => s.peek l.1 l.2))) ∧
      (∀ code ls, code ≠ 0 → s.targetRange p (64 * p.len) false = (code, ls) → exec (.read p []) s = .next (s.nakTo p code)) ∧
      (∀ ls, s.targetRange p p.data.length true = (0, ls) →
        exec (.write p []) s = .next ((s.writePieces ls p.data (p.pz && decide (p.len ≠ 0))).answer p opAck [])) ∧
      (∀ a, s.targetRange p p.data.length true = (0, [(a, p.data.length)]) → p.pz = false → (∀ i < p.data.length, inHbm (a + i) = inHbm a) →
        ∃ v, exec (.write p []) s = .next (v.answer p opAck []) ∧ (∀ i < p.data.length, v.byte (a + i) = p.data.getD i 0) ∧
          only v a p.data.length) ∧
      (∀ code ls, code ≠ 0 → s.targetRange p p.data.length true = (code, ls) → exec (.write p []) s = .next (s.nakTo p code)) ∧
      (∀ l, p.data.length = 64 → wordAt p.data 0 % 8 = 0 → s.target p (wordAt p.data 0) true = (0, false, l) → l % 8 = 0 →
        ∃ v, exec (.writeSignal p) s = .next (v.answer p opAck []) ∧
          v.peekN l 8 = (s.peekN l 8 + wordAt p.data 1) % 2 ^ 64 ∧ only v l 8) ∧
      (∀ b a l, p.addr % 8 = 0 → inReduction p.addr = false → s.target p p.addr false = (0, b, a) →
        s.target p p.addr true = (0, false, l) → l % 8 = 0 → wordAt p.data 0 < 4 →
        let aop := wordAt p.data 0
        let old := s.peekN l 8
        ∃ v, exec (.atomic p) s = .next (if aop = 0 then v.answer p opAck [] else v.answer p opAtomicData (unitOf [old])) ∧
          v.peekN l 8 = (if aop < 2 then (old + wordAt p.data 1) % 2 ^ 64 else if aop = 2 then wordAt p.data 1
            else if old = wordAt p.data 2 then wordAt p.data 1 else old) ∧ only v l 8)) ∧
  (∀ (p : Packet) (s : State) (c : Nat), s.fclk = true → p.dest = s.node → s.coreOf p = some c →
      (∀ o ∈ (s.core c).ops, o.op ≠ opPending) →
      let k := s.core c
      let o := s.coreOp c p
      let k1 := { k with ops := k.ops.eraseP (·.answers p) }
      let s1 := (s.setCore c k1).arrived p
      exec (.ack p) s = .next s1 ∧
      (∀ b, o.op = opRead → o.dst = .phys b → (∀ n w f, o.via ≠ .window n w f) → o.len ≤ 64 * p.len → o.len ≤ p.data.length →
        p.pz = false → s.Clean → s.Wf → (∀ i < o.len, inHbm (b + i) = inHbm b) →
        ∃ u, exec (.readData p) s = .next u ∧ (∀ i < o.len, u.byte (b + i) = p.data.getD i 0) ∧
          (∀ x, (x < b ∨ b + o.len ≤ x) → u.byte x = s.byte x) ∧ u = { s1 with mem := u.mem }) ∧
      (∀ t, o.op = opAtomic → k.tile = some t → (t.req, t.task) = o.task → t.idx = o.tile →
        exec (.atomicData p) s = .next (s1.setCore c (k1.setS o.rd (BitVec.ofNat 64 (wordAt p.data 0))))) ∧
      (∀ t, k.tile = some t → (t.req, t.task) = o.task → t.idx = o.tile →
        exec (.nak p) s = .next ((s1.discardTile c).faultOp o (p.data.getD 0 0).toNat)))

/-- WALK_VALIDATION (R191) of an ATTN that passes the checks that come first keeps the walk's references with the core
where every page serves it, leaves the state as it is where a reference count is full, and faults the task otherwise.
PAGE_ABSENT_REPORT (R196) starts the recompute tasks of a request that may recompute, else lets the fault stand;
RECOMPUTE_DONE drops them and dispatches every task that found a page absent again. -/
def Obligations.WalksAndAbsentPages : Prop :=
  (∀ (c : Nat) (w : AttnWord) (s : State) (t : TileCtx), s.issuing c = some t → c < s.cores.length → s.Clean →
    (s.core c).walked = none →
    let k := s.core c
    let wide := s.isWideAttn c t
    let p := s.attnPlan k t w wide
    let sound := attnOk w wide = true ∧ s.attnCode c t w p = 0 ∧ s.damage (p.area % 2 ^ 52) 64 = 0
    let r := s.validate c t p.walk p.d
    (¬sound → exec (.walkValidation c w) s = .next s) ∧
    (∀ (x : Walk) (tab : KvTab), sound → (s.readWalk t.ward p.walk p.d).2 = (x, tab, 0) →
      (∀ q ∈ x.entries tab, let e := s.ent t.ward q.2
        s.entCode t.ward q.2 = 0 ∧ e.odd tab = false ∧ x.good q.1 e = true ∧ e.refs < 4095) →
      ∃ u, exec (.walkValidation c w) s = .next u ∧ u.core c = { k with
          refs := k.refs ++ (x.entries tab).map (fun q => { ward := t.ward, table := tab.addr, entry := q.2 }),
          walked := some (p.walk, (x.entries tab).map fun q => (q.2, (s.ent t.ward q.2).fill)) } ∧
        ∀ j, j ≠ c → u.core j = s.core j) ∧
    (sound → r.2 = .wait → exec (.walkValidation c w) s = .next s) ∧
    (∀ code page, sound → r.2 = .fault code page →
      exec (.walkValidation c w) s = .next (r.1.taskFault c code page))) ∧
  ∀ (r : Nat) (s : State) (x : Request), s.req r = some x → Registers.wf s.csr →
    (x.reported < x.absents.length → x.phase = .absent → s.mayRecompute x = false →
      exec (.pageAbsentReport r) s = .next ((s.bump .kvpWardStat_ABSENT x.ward).modReq r fun y =>
        { y with reported := y.reported + 1, phase := .running, tasks := cancelRest (y.absents.headD {}).task y.tasks })) ∧
    (x.reported < x.absents.length → x.phase = .absent → s.mayRecompute x = true → x.ntask ≤ x.tasks.length →
      ∃ u y, exec (.pageAbsentReport r) s = .next u ∧ u.req r = some y ∧ y.phase = .recomputing ∧
        y.tasks = x.tasks.take x.ntask ++ (List.range x.nrecomp).map fun i => { addr := x.recompAddr + 64 * i }) ∧
    (x.phase = .recomputing → (∀ y ∈ x.tasks.drop x.ntask, y.phase = .complete) → s.exporter.bindings = [] →
      ∃ u y, exec (.recomputeDone r) s = .next u ∧ u.req r = some y ∧ y.phase = .running ∧
        y.tasks.length = min x.ntask x.tasks.length ∧ ∀ i z, i < x.ntask → x.tasks[i]? = some z →
          ∃ z', y.tasks[i]? = some z' ∧ (¬(z.phase = .faulted ∧ z.fault = cPageAbsent) → z' = z) ∧
            (z.phase = .faulted → z.fault = cPageAbsent → z'.phase = .dispatched ∧ z'.fault = 0))

/-! ### Links -/

/-- Die-to-die links (R14, R16, R396): the one route between two dies takes the fewest ring hops, between opposite C-dies by
C1 or C2; a CRC retry is counted, a link that goes down is counted, holds the traffic of every route through it and is down
until its retrain is done; one whose retrain fails stops the device for good: FATAL set, nothing left to dispatch or to resume. Ethernet
ports (R394, R395, R432): an export port that goes down trains again, the fourth time in 10 s it retires; training too
long or a tenth bad FEC window in a row retires it too, and every queue pair of it is in error. Enabled, it trains;
trained, it is up and what waited for it goes. The host port never retires. -/
def Obligations.DieLinksAndEthernetPorts : Prop :=
  (dieRoute 0 2 = [0, 1] ∧ dieRoute 1 3 = [1, 2] ∧ (∀ a < 6, ∀ b < 6, (dieRoute a b).length = (dieRoute b a).length) ∧
    (∀ a < 4, ∀ b < 4, (dieRoute a b).length = min ((a + 4 - b) % 4) ((b + 4 - a) % 4)) ∧
    ∀ a < 4, ∀ io < 2, (dieRoute a (4 + io)).length = if a / 2 = io then 1 else 2) ∧
  (∀ (link : Nat) (s : State),
      (s.dieLinkUp link = true →
        exec (.dieLinkCrcRetry link) s = .next
          { s with boot := { s.boot with dieLinkRetries := s.boot.dieLinkRetries.modify link (· + 1) } } ∧
        ∃ u, exec (.dieLinkDown link) s = .next u ∧ u.dieLinkUp link = false ∧
          (s.isReady = true → ∀ a b, link ∈ dieRoute a b → u.dieHeld a b = true) ∧
          u.boot = { s.boot with dieLinksUp := s.boot.dieLinksUp.set link false,
                                 dieLinkDowns := s.boot.dieLinkDowns.set link (s.boot.dieLinkDowns.getD link 0 + 1) }) ∧
      (s.isReady = true → s.dieLinkUp link = false →
        exec (.dieLinkRetrainDone link) s = .next
          { s with boot := { s.boot with dieLinksUp := s.boot.dieLinksUp.set link true } } ∧
        (s.Wf → ∃ u, exec (.dieLinkFailed link) s = .next u ∧ u.boot.phase = .fatal ∧ u.rd .logStat_FATAL = 1 ∧
          u.rd .sysStartStat_STATE = 4 ∧ u.requests = [] ∧ u.images = [] ∧ ∀ c < 192, (u.core c).tile = none))) ∧
  (∀ (port : Nat) (s : State), s.Wf → s.fclk = true →
      let recent := (Smap.get [] s.host.downs port).filter fun x => decide (s.raw < x + 10000000000)
      let retired := fun (u : State) => u.rd .hostPortStat_LINK port = 3 ∧
        ∀ n q, s.qp n = some q → q.port = port → q.state = .rts → ∃ v, u.qp n = some v ∧ v.state = .error
      let bad := Smap.get 0 s.host.badWindows port
      let counted := fun (n : Nat) => { s with host := { s.host with badWindows := Smap.put 0 s.host.badWindows port n } }
      (1 ≤ port → port ≤ 4 →
        (s.rd .hostPortStat_LINK port = 2 → recent.length < 3 → ∃ u, exec (.exportLinkDown port) s = .next u ∧
          u.rd .hostPortStat_LINK port = 1 ∧ u.rd .hostPortStat_LINK_DOWNS port = satN 16 (s.rd .hostPortStat_LINK_DOWNS port + 1) ∧
          u.host.qps = s.host.qps) ∧
        (s.rd .hostPortStat_LINK port = 2 → 3 ≤ recent.length → ∃ u, exec (.exportLinkDown port) s = .next u ∧ retired u) ∧
        (s.rd .hostPortStat_LINK port = 1 → Smap.get [] s.host.downs port ≠ [] →
          ∃ u, exec (.exportRetrainTimeout port) s = .next u ∧ retired u) ∧
        (s.rd .hostPortStat_LINK port = 1 → s.flag .expPortCfg_ENABLE (port - 1) = true → Smap.get [] s.host.downs port = [] →
          exec (.exportLinkUp port) s = .next ((s.wr .hostPortStat_LINK port 2).flushPort port)) ∧
        (s.managed = true → s.rd .hostPortStat_LINK port = 0 → s.flag .expPortCfg_ENABLE (port - 1) = false →
          exec (.exportPortEnable port) s = .next ((s.wr .expPortCfg_ENABLE (port - 1) 1).wr .hostPortStat_LINK port 1)) ∧
        (∀ e, (s.rd .hostPortStat_LINK port = 1 ∨ s.rd .hostPortStat_LINK port = 2) →
          (e ≤ 256 → exec (.exportFecWindowEnd port e) s = .next (counted 0)) ∧
          (256 < e → bad < 9 → exec (.exportFecWindowEnd port e) s = .next (counted (bad + 1))) ∧
          (256 < e → 9 ≤ bad → ∃ u, exec (.exportFecWindowEnd port e) s = .next u ∧ retired u))) ∧
      (port = 0 →
        (s.rd .hostPortStat_LINK 0 = 2 → ∃ u, exec .hostLinkDown s = .next u ∧ u.rd .hostPortStat_LINK 0 = 1 ∧
          u.host.qps = s.host.qps) ∧
        (s.rd .hostPortStat_LINK 0 = 1 → exec .hostLinkUp s = .next ((s.wr .hostPortStat_LINK 0 2).flushPort 0))))

/-- A packet's header spells its fields (Table 10.4): reading the header back gives every field, for every packet whose
fields fit. -/
def Obligations.PacketHeaderRoundTrip : Prop :=
  ∀ p : Packet, p.dest < 2 ^ 12 → p.src < 2 ^ 12 → p.op < 2 ^ 5 → p.ward < 2 ^ 9 → p.dir < 2 ^ 3 → p.pseq < 2 ^ 16 →
    p.len < 2 ^ 7 → p.addr < 2 ^ 52 → packetOfHeader (packetHeader p) = { p with data := [] }

/-- Flits of a hinge port that is up (R260, R263, R267): one wrong symbol in each half is corrected; a flit whose CRC is bad
or whose sequence number is not the expected one is discarded and asked for again, unless it follows one already asked for,
and no more happens; a good one that completes no packet advances the expected number, acknowledges, and takes credits; a
retry request sends the flits from its number on again, and the one after 16 failed retries of one SEQ takes the link down.
States of a hinge port with no packet waiting (R257, R266 to R268, R433, R437): what brings it down, up, into waiting or
into retirement, and with which CAUSE; an announcement is noted and passed on once; held packets follow once the older ones
are accounted for. What a data flit is where its header spells none, and when a retry is asked for twice, is this model's
(log entry 157). -/
def Obligations.HingePorts : Prop :=
  (∀ (port : Nat) (f : Flit) (s : State), port < s.hinge.ports.length → s.fclk = true → s.rd .hngPortStat_STATE port = 2 →
      let h := (s.port port).corrected (fecLanes f)
      let g := receivedFlit f
      let asked := { h with controls := h.controls ++ [.retry h.expect], asked := true }
      ((∀ half < 2, (f.errors.filter fun e => decide (e.1 / 64 = half)).length ≤ 1) → (∀ e ∈ f.errors, e.1 < 128) →
        g = { f with errors := [] }) ∧
      (g.crc ≠ goodCrc g → exec (.dataFlit port f) s = .next (s.setPort port asked)) ∧
      (g.crc = goodCrc g → g.typ = 0 → g.vc < 6 → g.seq ≠ h.expect →
        exec (.dataFlit port f) s = .next (s.setPort port (if h.asked then h else asked))) ∧
      (g.crc = goodCrc g → g.typ = 0 → g.vc < 6 → g.seq = h.expect → h.outPackets = [] →
        (parsePackets 64 (Smap.get [] h.partial_ g.vc ++ g.payload)).1 = [] →
        ∃ u, exec (.dataFlit port f) s = .next u ∧ u = { s with hinge := { s.hinge with ports := u.hinge.ports } } ∧
          (∀ i, i ≠ port → u.port i = s.port i) ∧
          let v := u.port port
          v.expect = (h.expect + 1) % 1024 ∧ v.ackSeq = g.seq ∧ v.asked = false ∧
          v.credits = h.credits.modify g.crvc (· + g.crn) ∧ (∀ x ∈ v.retryBuf, x ∈ h.retryBuf) ∧ v.outFlits = h.outFlits) ∧
      ∀ (q : CtlFlit) (seq i : Nat), q.port = port →
        let x := (s.port port).heard q.ack q.crvc q.crn
        (x.retryBuf.findIdx? fun y => y.1 = seq) = some i →
        (x.outPackets = [] → (x.retrySeq = seq → x.badRetry < 16) →
          ∃ u, exec (.retryControlFlit q seq) s = .next u ∧ (∀ j, j ≠ port → u.port j = s.port j) ∧
            (u.port port).outFlits = x.outFlits ++ (x.retryBuf.drop i).map (·.2) ∧ (u.port port).retryBuf = x.retryBuf ∧
            (u.port port).retries = x.retries + 1) ∧
        (x.retrySeq = seq → 16 ≤ x.badRetry → s.Wf → port < 6 →
          (x.downs.filter fun y => decide (s.raw < y + 10000000000)).length < 3 →
          ∃ u, exec (.retryControlFlit q seq) s = .next u ∧ u.rd .hngPortStat_STATE port = 3)) ∧
  (∀ (port : Nat) (s : State), port < s.hinge.ports.length → port < 6 → s.Wf → s.fclk = true →
      (s.port port).sent = [] → (s.port port).outPackets = [] →
      let h := s.port port
      let state := s.rd .hngPortStat_STATE port
      let retires := fun (i : Instr) (cause : Nat) => ∃ u, exec i s = .next u ∧ u.rd .hngPortStat_STATE port = 4 ∧
        u.rd .hngPortStat_CAUSE port = cause
      let goes := fun (i : Instr) (st : Nat) => ∃ u, exec i s = .next u ∧ u.rd .hngPortStat_STATE port = st
      let recent := h.downs.filter fun x => decide (s.raw < x + 10000000000)
      let limit := s.rd .hngRetireCfg_LANE_LIMIT (axisDie (port / 2))
      let retry := s.rd .hngRetireCfg_RETRY_LIMIT (axisDie (port / 2))
      let most := h.lanes.foldl max 0
      ((state = 2 ∨ state = 3) →
        (∀ q : CtlFlit, q.port = port → retires (.retireControlFlit q) 3 ∧
          ∃ u, exec (.leaveControlFlit q) s = .next u ∧ u.rd .hngPortStat_STATE port = 1 ∧
            (u.rd .sysStartStat_WAITING).testBit port = true) ∧
        (most ≤ 4 * limit → h.retries ≤ retry → ∃ u, exec (.hingeErrorWindowEnd port) s = .next u ∧
          u.rd .hngPortStat_STATE port = state ∧ (u.port port).lanes = List.replicate 8 0 ∧ (u.port port).badLane = 0 ∧
          (u.port port).retried = 0) ∧
        (4 * limit < most → 9 ≤ h.badLane → retires (.hingeErrorWindowEnd port) 4) ∧
        (most ≤ 4 * limit → retry < h.retries → 9 ≤ h.retried → retires (.hingeErrorWindowEnd port) 5)) ∧
      (state = 2 → (recent.length < 3 → goes (.hingeLinkDown port) 3) ∧ (3 ≤ recent.length → retires (.hingeLinkDown port) 2)) ∧
      (state = 3 → goes (.hingeRetrainDone port) 2 ∧ retires (.hingeRetrainTimeout port) 1) ∧
      (state = 1 → h.training = false → exec (.peerSignalDetected port) s = .next
        (s.setPort port { h with training := true, controls := h.controls ++ [.identity s.node port] })) ∧
      (state = 1 → h.training = true → retires (.hingeTrainingTimeout port) 6 ∧
        goes (.hingeTrainingDone port (s.neighbour s.node port) (peerPort port)) 2 ∧
        ∀ node peer, (node ≠ s.neighbour s.node port ∨ peer ≠ peerPort port) → goes (.hingeTrainingDone port node peer) 5) ∧
      (∀ a : Announcement, state = 2 → a.node ≠ s.node →
        (decide ((a.node, a.port) ∈ s.hinge.linkBad) = !a.usable → exec (.portAnnouncement port a) s = .next s) ∧
        (decide ((a.node, a.port) ∈ s.hinge.linkBad) = a.usable → ∃ u, exec (.portAnnouncement port a) s = .next u ∧
          (∀ x, x ∈ u.hinge.linkBad ↔ if x = (a.node, a.port) then a.usable = false else x ∈ s.hinge.linkBad) ∧
          (s.rd .hngPortStat_STATE (peerPort port) = 2 → peerPort port < s.hinge.ports.length →
            (u.port (peerPort port)).controls = (s.port (peerPort port)).controls ++ [.announce a]))) ∧
      ∀ dest o out, Smap.get [] s.hinge.heldRoutes dest = [o] → (∀ f ∈ s.hinge.flying, f.dest ≠ dest) →
        s.route o.p none = some out →
        ∃ u : State, exec (.routeChangeRelease dest) s = .next (u.launch o.p out none o.hold) ∧
          u.hinge.heldRoutes = Smap.put [] s.hinge.heldRoutes dest [] ∧
          u.hinge.flying = s.hinge.flying ++ [{ dest := o.p.dest, pseq := o.p.pseq, port := out }] ∧ u.hinge.ports = s.hinge.ports)

/-- Torus time (R271 to R273): an exchange sends this device's time and the root it follows, or itself; a flit of the upstream
that completes an exchange sets device time to the sender's time and the link delay at the first lock, and afterwards slews
by at most 1 ns for each µs; a silent upstream is followed no more, and no step comes of it. -/
def Obligations.TorusTime : Prop :=
  ∀ (port : Nat) (s : State), port < 6 → port < s.hinge.ports.length → s.Wf → s.fclk = true →
    s.rd .hngPortStat_STATE port = 2 →
    let h := s.port port
    (∃ u, exec (.timeExchange port) s = .next u ∧ (u.port port).lastTx = s.time ∧ u.hinge.timeSent = s.hinge.timeSent ++
      [(port, { sentAt := s.time, prevRx := h.lastRx, root := if s.hinge.following.isSome then s.rd .hngTimeStat_ROOT else s.node,
                hops := if s.hinge.following.isSome then s.rd .hngTimeStat_HOPS else 0 })]) ∧
    (∀ f : TimeFlit, f.crcOk = false → exec (.timeFlit port f) s = .next s) ∧
    (∀ f : TimeFlit, f.crcOk = true →
      let delay : Int := (((s.time : Int) - h.lastTx) - ((f.sentAt : Int) - f.prevRx)) / 2
      let s1 := s.setPort port { h with lastRx := s.time, peerRoot := f.root, peerHops := f.hops }
      s1.upstream = some port →
      ∃ u, exec (.timeFlit port f) s = .next u ∧ u.raw = s.raw ∧ u.rd .hngTimeStat_LOCKED = 1 ∧
        u.rd .hngTimeStat_UPSTREAM = port % 2 ^ (Fld.hngTimeStat_UPSTREAM).width ∧
        ((h.lastTx = 0 ∨ f.prevRx = 0) → u.time = s.time ∧ u.hinge.everLocked = s.hinge.everLocked) ∧
        (h.lastTx ≠ 0 → f.prevRx ≠ 0 →
          (s.hinge.everLocked = false → u.time = unsignedOf 64 ((f.sentAt : Int) + delay)) ∧
          (s.hinge.everLocked = true → u.time = s.time ∧ u.hinge.slewBy = (f.sentAt : Int) + delay - s.time ∧
            ∀ n, s.raw + n < 2 ^ 64 → ((u.wr .sysTimeRaw_RAW 0 (s.raw + n)).offset - u.offset).natAbs ≤ n / 1000))) ∧
    (s.hinge.following = some port → ∃ u, exec .upstreamTimeout s = .next u ∧ (u.port port).peerHops = 32 ∧
      u.hinge.following ≠ some port ∧ u.time = s.time)

/-! ### Queue pairs, export and the host -/

/-- Transport events of a queue pair in RTS with messages unacknowledged (R225, R329, R337, Table 8.13): a sequence
error, an RNR timer and a timeout send every message again in order, where the port sends, an RNR NAK waits, the timeout after the seventh
retransmission and the other NAKs move the queue pair to error, a remote-access NAK failing the binding it hits.
Congestion control (R334): a marked packet is answered by a CNP at most once in 50 us; a CNP moves alpha towards 1,
cuts the rate by half of alpha's part, not below MIN_GBPS, and remembers the old rate as target; a period without one
moves alpha towards 0 and the rate half way to the target. A pause holds the lossless priority of one port; its end lets
what waited go. -/
def Obligations.QueuePairErrorsAndRates : Prop :=
  (∀ (n : Nat) (s : State) (q : Qp), s.qp n = some q → q.state = .rts → q.onWay ≠ [] →
      let again := s.host.out ++ if s.sends q.port then q.unacked.map fun m => (n, m) else []
      let left := if s.sends q.port then 0 else q.unsent
      let leaves := fun (i : Instr) (v : Qp) (out : List (Nat × RdmaOut)) => ∃ u, exec i s = .next u ∧ u.qp n = some v ∧
        u.host.out = out ∧ u = { s with csr := u.csr, host := { s.host with qps := u.host.qps, out := u.host.out } }
      let fails := fun (u : State) => ∃ v, u.qp n = some v ∧ v.state = .error ∧ v.unacked = []
      leaves (.psnSequenceErrorNak n) { q with unsent := left } again ∧ leaves (.rnrNak n) { q with rnrWait := true } s.host.out ∧
      (q.rnrWait = true → leaves (.rnrTimerExpiry n) { q with rnrWait := false, unsent := left } again) ∧
      (q.retries < 7 → leaves (.ackTimeout n) { q with retries := q.retries + 1, unsent := left } again) ∧
      (q.retries = 7 → ∃ u, exec (.retriesExhausted n) s = .next u ∧ fails u) ∧
      (∃ u, exec (.remoteOperationalErrorNak n) s = .next u ∧ fails u) ∧
      ∃ u, exec (.remoteAccessErrorNak n) s = .next u ∧ fails u ∧
        ∀ b y, s.oldestBinding n = some b → s.binding b = some y → y.live = true →
          ∃ z, u.binding b = some z ∧ z.failed = cRemoteAccess) ∧
  (∀ (n : Nat) (s : State) (q : Qp), s.qp n = some q → q.state = .rts → s.linkUp q.port = true → s.ecn q.port = true →
      let g : Rat := ((2 ^ s.rd .hostEcnCfg_GSHIFT q.port : Nat) : Rat)
      let giga := fun k : Nat => (k : Rat) * 1000000000
      ((∀ t, q.lastCnp = some t → t + 50000 ≤ s.raw) → ∃ u, exec (.ceMarkedPacket n) s = .next u ∧
        u.qp n = some { q with lastCnp := some s.raw, cnpsSent := q.cnpsSent + 1 } ∧
        (if s.sends q.port then u.host.replies = s.host.replies ++ [(n, ansCnp, [])]
          else u.host.heldReplies = s.host.heldReplies ++ [(n, ansCnp, [])])) ∧
      (∀ t, q.lastCnp = some t → s.raw < t + 50000 → exec (.ceMarkedPacket n) s = .next s) ∧
      (∃ u v, exec (.cnp n) s = .next u ∧ u.qp n = some v ∧ v.alpha = q.alpha - q.alpha / g + 1 / g ∧ v.target = q.rate ∧
        v.rate = max (giga (s.rd .hostEcnCfg_MIN_GBPS q.port)) (q.rate * (1 - v.alpha / 2)) ∧ v.periods = 0) ∧
      (∃ u v, exec (.rateRecoveryPeriodEnd n) s = .next u ∧ u.qp n = some v ∧ v.alpha = q.alpha - q.alpha / g ∧
        v.target = (if q.periods < 5 then q.target else min 800000000000 (q.target + giga (s.rd .hostEcnCfg_STEP_GBPS q.port))) ∧
        v.rate = (q.rate + v.target) / 2 ∧ v.periods = q.periods + 1) ∧
      ∀ b, q.port < 5 → exec (.pfcPauseFrame q.port (s.rd .hostEcnCfg_PRIO q.port) b) s = .next
        (({ s with host := { s.host with paused := Smap.put 0 s.host.paused q.port (if b then 1 else 0) } } : State).flushPort q.port) ∧
        (b = true → ∃ u, exec (.pfcPauseFrame q.port (s.rd .hostEcnCfg_PRIO q.port) b) s = .next u ∧ u.host.out = s.host.out ∧
          u.sends q.port = false))

/-- Export events (R213, R215, R218, R219, R224): acknowledged pages become EXPORTED, the marker of the last layer
raises the acknowledged TARGET_END and lets waiting requests complete, a binding that waits too long for a grant fails
with NO_CREDIT, and GRANT_TAIL on a partner's own queue pair is stored and consumed, a tail too far ahead losing the
partner. -/
def Obligations.ExportEvents : Prop :=
  ∀ s : State, s.Wf →
    (∀ b x, s.binding b = some x → x.live = true →
      (x.starved = true → ∃ u y, exec (.creditWaitExpiry b) s = .next u ∧ u.binding b = some y ∧ y.failed = cNoCredit ∧
        y.taken = []) ∧
      (∀ page, page ∈ x.taken → x.ends = [] →
        let a := (s.tabOf x).entries + 16 * page
        let e := s.ent x.ward a
        e.state = pExporting → e.dmg = false → s.entCode x.ward a = 0 →
        ∃ u y, exec (.exportWriteAcknowledged b page) s = .next u ∧ u.binding b = some y ∧
          y.taken = x.taken.filter (· ≠ page) ∧ u.mem = (s.setEnt x.ward a { e with state := pExported, xd := true }).mem) ∧
      (∀ layer q p m, (s.host.qps.find? fun p => p.2.onWay.any fun m =>
            decide (m.tag = 3) && decide (m.binding = b) && decide (m.page = layer)) = some (q, p) →
        (p.onWay.find? fun m => decide (m.tag = 3) && decide (m.binding = b) && decide (m.page = layer)) = some m →
        m.kind = 1 → layer + 1 = (s.tabOf x).layers → x.unbindEnd = 0 →
        ∃ u y, exec (.markerAcknowledged b layer) s = .next u ∧ u.binding b = some y ∧
          y.lastAcked = max x.lastAcked m.entry ∧
          ∀ r ∈ u.requests, r.binding = some b → r.bindingEnd ≤ m.entry → r.markerDone = true)) ∧
    ∀ (n slot p : Nat) (tail : BitVec 32) (q : Qp), s.qp n = some q → q.state = .rts → q.port ≠ 0 → s.linkUp q.port = true →
      s.slotOwner n (q.port - 1) slot = some p →
      let ahead := (tail.toNat + 2 ^ 32 - Smap.get 0 s.exporter.consumed p % 2 ^ 32) % 2 ^ 32
      (s.partnerActive p = false → exec (.grantTail n slot tail) s = .next
        ((s.pokeN (inboxAddr (q.port - 1) slot) 4 tail.toNat).qpAnswer n ansAck)) ∧
      (s.partnerActive p = true → 8064 < ahead → ∃ u, exec (.grantTail n slot tail) s = .next u ∧
        u.rd .expPartnerStat_STATE p = 2 ∧ u.rd .expPartnerStat_CAUSE p = 5) ∧
      (s.partnerActive p = true → ahead ≤ 8064 → (∀ b ∈ s.exporter.bindings, b.partner = p → b.live = false) →
        ∃ u, exec (.grantTail n slot tail) s = .next u ∧
          u.exporter.consumed = Smap.put 0 s.exporter.consumed p ((Smap.get 0 s.exporter.consumed p + ahead) % 2 ^ 32) ∧
          (s.rd .expPartnerStat_BAD_GRANTS p < 2 ^ 16 →
            u.rd .expPartnerStat_BAD_GRANTS p = satN 16 (s.rd .expPartnerStat_BAD_GRANTS p + ahead)) ∧
          (s.sends q.port = true → u.host.replies = s.host.replies ++ [(n, ansAck, [])]))

/-- Requests on a queue pair of the host port, which sends (R326, R327, R328, R335): with the right key, a ward's holder reads and writes the
bytes that its ward maps and no other, and queue pair 0 fills the management window; a wrong key is answered with a
remote-access NAK and moves the queue pair to error. A WRITE with immediate and a request of an operation that no port
supports are rejected and counted, a frame that a port does not support is dropped and counted, and an acknowledgement
releases the oldest WRITE. -/
def Obligations.InboundRequests : Prop :=
  ∀ (n gid : Nat) (rkey : BitVec 32) (addr : Nat) (s : State) (q : Qp), s.qp n = some q → q.state = .rts → q.port = 0 →
    s.sends 0 = true → s.hostServes = true → s.Wf →
    let keyed := rkey.toNat % 2 ^ 28 = q.key ∧ (n = 0 → gid = q.gid)
    let space := rkey.toNat / 2 ^ 28
    (∀ data b, keyed → space = 0 → q.holder < 512 → addr + data.length ≤ hbmBase → s.Clean →
      (∀ i < data.length, s.locate q.holder (s.node * 2 ^ 52 + addr + i) true = (0, .phys (b + i)) ∧ inHbm (b + i) = inHbm b) →
      ∃ u, exec (.inboundRdmaWrite { qpn := n } gid rkey addr data) s = .next u ∧ (∀ i < data.length, u.byte (b + i) = data.getD i 0) ∧
        (∀ x, (x < b ∨ b + data.length ≤ x) → u.byte x = s.byte x) ∧ u.host.replies = s.host.replies ++ [(n, ansAck, [])]) ∧
    (∀ len b, keyed → space = 0 → q.holder < 512 → addr + len ≤ hbmBase → s.Clean →
      (∀ i < len, s.locate q.holder (s.node * 2 ^ 52 + addr + i) false = (0, .phys (b + i))) →
      ∃ u, exec (.inboundRdmaRead { qpn := n } gid rkey addr len) s = .next u ∧ (∀ x, u.byte x = s.byte x) ∧
        u.host.replies = s.host.replies ++ [(n, ansData, s.peek b len)]) ∧
    (∀ data, keyed → space = 3 → n = 0 → addr + data.length ≤ 0x100000 → Smap.wf 0 s.host.mgmtRing = true →
      ∃ u, exec (.inboundRdmaWrite { qpn := n } gid rkey addr data) s = .next u ∧
        (∀ i < data.length, Smap.get 0 u.host.mgmtRing (addr + i) = data.getD i 0) ∧
        (∀ x, (x < addr ∨ addr + data.length ≤ x) → Smap.get 0 u.host.mgmtRing x = Smap.get 0 s.host.mgmtRing x) ∧
        u.mem = s.mem ∧ u.csr = s.csr) ∧
    (∀ data, rkey.toNat % 2 ^ 28 ≠ q.key → n ≠ 0 → s.qpPartner n = none → ∃ u v, exec (.inboundRdmaWrite { qpn := n } gid rkey addr data) s = .next u ∧
      u.qp n = some v ∧ v.state = .error ∧ u.host.replies = s.host.replies ++ [(n, ansAccess, [])] ∧ u.mem = s.mem) ∧
    exec (.rdmaWriteWithImmediate n) s = .next ((s.bump .hostPortStat_REJECTS 0).qpAnswer n ansInvalid) ∧
    (∀ data len, ∀ i ∈ [fun f => Instr.inboundRdmaWrite f gid rkey addr data, fun f => .inboundRdmaRead f gid rkey addr len],
      exec (i { qpn := n, fit := .operation }) s = .next ((s.bump .hostPortStat_REJECTS 0).qpAnswer n ansInvalid) ∧
      ∀ port, s.linkUp port = true → exec (i { qpn := n, fit := .frame port }) s = .next (s.bump .hostPortStat_REJECTS port)) ∧
    ∃ u, exec (.hostRdmaWriteAcknowledged n) s = .next u ∧
      u.qp n = some { q with unacked := (q.onWay.eraseP fun m => decide (m.kind ≠ 2)) ++ q.waits, retries := 0 }

/-- Doorbells and submission entries (R331, R333): SQ_TAIL is cumulative and CQ_HEAD may not pass the entries written, a
value out of range being counted as a doorbell error and nothing else; a NOP entry completes with 0 and a reserved
operation with DESCRIPTOR; a RUN entry without a binding that its checks pass becomes a waiting request of its ward's
home die, and one that they refuse completes with the code. -/
def Obligations.DoorbellsAndEntries : Prop :=
  ∀ (n : Nat) (s : State) (g : Gotar) (q : Qp), s.gotar n = some g → n ≠ 0 → s.deleting g.ward = false → s.qp n = some q →
    q.state = .rts →
    (∀ v : BitVec 32, s.hostRts n = true →
      (g.es < ahead v.toNat g.taken → exec (.sqTail n v) s = .next (s.bump .hostPortStat_DOORBELL_ERR 0)) ∧
      (ahead v.toNat g.taken ≤ g.es → ahead g.tail g.taken ≤ ahead v.toNat g.taken →
        ∃ u, exec (.sqTail n v) s = .next u ∧
          u.gotar n = some { g with tail := v.toNat, announced := g.announced ++ [(v.toNat, s.raw)] }) ∧
      (ahead g.written g.cqHead < ahead v.toNat g.cqHead →
        exec (.cqHead n v) s = .next (s.bump .hostPortStat_DOORBELL_ERR 0)) ∧
      (ahead v.toNat g.cqHead ≤ ahead g.written g.cqHead →
        ∃ u, exec (.cqHead n v) s = .next u ∧ u.gotar n = some { g with cqHead := v.toNat })) ∧
    (g.taken ≠ g.tail →
      let r := s.vread g.ward (s.node * 2 ^ 52 + g.sqBase + g.taken % g.es * 128) 128
      let e : SubEntry := { index := g.taken, began := g.began g.taken s.raw, ws := wordsIn r.2.1 }
      let ends := fun (i : Instr) (code : Nat) => ∃ u v c, exec i s = .next u ∧ u.gotar n = some v ∧
        v.taken = (g.taken + 1) % 2 ^ 32 ∧ v.waiting = g.waiting ++ [c] ∧ c.status = code ∧ c.tag = e.tag ∧ c.sq = g.taken
      r.2.2 = 0 →
      (e.op = 0 → e.reserved = false → ends (.submissionNop n) 0) ∧ (3 < e.op → ends (.submissionNop n) cDescriptor) ∧
      (e.op = 1 → e.runCode ≠ 0 → ends (.run n) e.runCode) ∧
      (e.op = 1 → e.runCode = 0 → e.word 5 = 0 → s.Clean →
        ∃ u x, exec (.run n) s = .next u ∧ u.requests = s.requests ++ [x] ∧ x.qpn = n ∧ x.tag = e.tag ∧ x.ward = g.ward ∧
          x.die = g.die ∧ x.phase = .waiting ∧ x.bucket = max 4 (bitLen (e.length - 1)) ∧
          x.tasks = (List.range e.ntask).map fun i => { addr := e.word 1 + 64 * i }))

/-! ### Management -/

/-- Management of queue pairs, queues, addresses, registers, owner, firmware and quotes (R326, R329, R330, R338, R356, R358,
R359, R445): what each leaves before its completion is handed to the management queue. -/
def Obligations.ManagementCommands : Prop :=
  ∀ (s : State) (m : MgmtCmd), s.Wf →
    (s.mgmtNew 0x01 = some m → s.qpCode m = 0 → ∃ (v : State) (m' : MgmtCmd) (q : Qp), exec .qpCreate s = .next (v.mgmtDone m' 0) ∧
      v.qp (m.param 0) = some q ∧ q.state = .rts ∧ q.port = m.param 1 ∧ q.holder = m.param 2 ∧ q.key = m.param 3 ∧
      q.unacked = [] ∧ ∀ k, k ≠ m.param 0 → Smap.wf none (s.host.qps.map fun p => (p.1, some p.2)) = true → v.qp k = s.qp k) ∧
    (s.mgmtNew 0x01 = some m → s.qpCode m ≠ 0 → exec .qpCreate s = .next (s.mgmtDone m (s.qpCode m))) ∧
    (s.mgmtNew 0x02 = some m → m.param 0 ≠ 0 → (s.qp (m.param 0)).isSome = true →
      ∃ v : State, exec .qpDestroy s = .next (v.mgmtDone m 0) ∧ v.qp (m.param 0) = none ∧ v.gotar (m.param 0) = none) ∧
    (∀ q, s.mgmtNew 0x03 = some m → m.param 0 ≠ 0 → s.qp (m.param 0) = some q → q.port = 0 → s.wardOk q.holder = true →
      s.gotar (m.param 0) = none → ringCount (m.param 2) = true → ringCount (m.param 5) = true →
      s.ringMapped q.holder (m.param 1) (m.param 2) = true →
      ∃ (v : State) (g : Gotar), exec .queueCreate s = .next (v.mgmtDone m 0) ∧ v.gotar (m.param 0) = some g ∧ g.ward = q.holder ∧
        g.sqBase = m.param 1 ∧ g.es = m.param 2 ∧ g.cqAddr = m.param 3 ∧ g.ec = m.param 5 ∧ g.tail = 0 ∧ g.taken = 0) ∧
    (s.mgmtNew 0x04 = some m → m.param 0 ≠ 0 → (s.gotar (m.param 0)).isSome = true →
      ∃ v : State, exec .queueDestroy s = .next (v.mgmtDone m 0) ∧ v.gotar (m.param 0) = none ∧
        ∀ x ∈ v.requests, x.qpn = m.param 0 → x.noCompletion = true ∧ x.phase ≠ .waiting ∧ x.phase ≠ .ready) ∧
    (∀ off, s.mgmtNew 0x20 = some m → region (m.param 0) = .csr off → off % 8 = 0 →
      ((s.isReady = true ∧ ∀ r i n, Reg.atCsr off = some (r, i, n) → r ≠ .sysRestart ∧ r ≠ .hngTorusCfg) ∨
        ((s.csrWrite .signed off (m.param 1) (m.param 2)).1.isReady = true ∧
          torusWaits off s (s.csrWrite .signed off (m.param 1) (m.param 2)).1 = false)) →
      ∃ m', exec .csrWrite s = .next ((s.csrWrite .signed off (m.param 1) (m.param 2)).1.mgmtDone m' 0)) ∧
    (s.mgmtNew 0x30 = some m → m.param 0 ≤ 4 → m.param 1 < 2 ^ 48 → m.param 2 < 2 ^ 32 →
      ∃ v : State, exec .netCfg s = .next (v.mgmtDone m 0) ∧ v.host.net =
        s.host.net.set (m.param 0) { mac := m.param 1, ip4 := m.param 2, ip6 := m.param 3 + m.param 4 * 2 ^ 64 }) ∧
    (s.mgmtNew 0x43 = some m → Config.validPoint m.key = true → ∃ u, exec .ownerSet s = .next u ∧
      u.sec.ownerKey = some m.key ∧ u.sec.ownerSeq = s.sec.ownerSeq + 1 ∧ u.rd .secStat_OWNER = 1) ∧
    (∀ q, s.mgmtNew 0x44 = some m → m.param 1 + 64 ≤ 0x800000 → s.qp 0 = some q → q.state = .rts →
      ∃ u x p, exec .fwUpdate s = .next u ∧ u.qp 0 = some p ∧ p.unacked = q.unacked ++ [x] ∧
        u.host.out = s.host.out ++ (if s.sends q.port = true ∧ q.unsent = 0 then [(0, x)] else []) ∧ x.kind = 2 ∧ x.addr = m.param 0 ∧
        x.len = m.param 1 ∧ u.host.mgmt = some { m with stage := 1 }) ∧
    (s.mgmtIs 0x44 = some m → m.stage = 2 →
      ∃ v : State, exec (.slotProgramDone true) s = .next (v.updateEnd m 0) ∧ v.rd .secStat_UPDATE_PENDING = 1) ∧
    ∀ q, s.mgmtNew 0x45 = some m → (m.param 0 = ownerHolder ∨ (m.param 0 < 512 ∧ s.wardActive (m.param 0) = true)) →
      s.qp 0 = some q → q.state = .rts →
      ∃ (v : State) (x : RdmaOut) (p : Qp), exec .quote s = .next (v.mgmtDone m 0) ∧ v.qp 0 = some p ∧ p.unacked = q.unacked ++ [x] ∧
        v.host.out = s.host.out ++ (if s.sends q.port = true ∧ q.unsent = 0 then [(0, x)] else []) ∧ x.kind = 0 ∧
        x.addr = m.param 9 ∧ x.data = s.quoteBytes (m.param 0) (bytesIn ((m.params.drop 1).take 8))

/-- Memory commands (R242, R243, R251, R254, Table 9.9): MAP completes with what its allocation leaves or with its
failure, one 2 MiB page standing in a frame that was free, filled with zeros; LOAD asks the host for its data, which waits where the port does not send; UNMAP
and PROTECT change the ward's mappings at once and complete once earlier accesses have; windows are lent, taken back,
asked for and mapped. The data that a LOAD asked for (R241): a READ response of the length asked for fills the range's
one page whatever its permissions, and the command
completes. -/
def Obligations.MemoryCommands : Prop :=
  (∀ (s : State) (m : MgmtCmd), s.Wf →
      let w := m.param 0
      let map := s.mapRange w (m.param 1) (m.param 2) (m.param 3) (m.param 4) {}
      (∀ t, s.mgmtNew 0x10 = some m → s.wardOk w = true → m.param 5 = 0 → map = .ok t →
        exec .map s = .next (t.mgmtDone m 0) ∧
        ∀ x, s.ward w = some x → m.param 2 = 2 ^ 21 → m.param 3 = 2 ^ 21 → ∃ f y, s.frameUse f = .free ∧
          t.frameUse f = .map w ∧ (∀ i < 2 ^ 21, t.byte (frameAddr f + i) = 0) ∧
          t.ward w = some { x with maps := x.maps ++ [y] } ∧ y.va = m.param 1 ∧ y.target = .hbm (frameAddr f)) ∧
      (∀ e, s.mgmtNew 0x10 = some m → s.wardOk w = true → m.param 5 = 0 → map = .error e →
        exec .map s = .next (s.mgmtDone m e.code e.short)) ∧
      (∀ t q, s.mgmtNew 0x11 = some m → s.wardOk w = true → map = .ok t → s.qp 0 = some q → q.state = .rts →
        ∃ u x p, exec .load s = .next u ∧ u.qp 0 = some p ∧ p.unacked = q.unacked ++ [x] ∧
          u.host.out = s.host.out ++ (if s.sends q.port = true ∧ q.unsent = 0 then [(0, x)] else []) ∧ x.kind = 2 ∧ x.addr = m.param 5 ∧
          x.len = m.param 2 ∧ u.wards = t.wards ∧ u.mem = t.mem ∧ u.host.mgmt = some { m with stage := 1 }) ∧
      (∀ ms x, s.mgmtNew 0x12 = some m → s.rangeMaps w (m.param 1) (m.param 2) = some ms → s.ward w = some x →
        ∃ u y, exec .unmap s = .next u ∧ u.ward w = some y ∧ y.maps = x.maps.filter (fun z => !decide (z ∈ ms)) ∧
          u.host.cutovers = s.host.cutovers ++ [({ ward := w, unmap := true, maps := ms }, m)] ∧ u.hbm = s.hbm) ∧
      (∀ ms x, s.mgmtNew 0x13 = some m → s.rangeMaps w (m.param 1) (m.param 2) = some ms → s.ward w = some x →
        ∃ u y, exec .protect s = .next u ∧ u.ward w = some y ∧ y.maps = x.maps.map (fun z => if z ∈ ms then
            { z with r := (m.param 3).testBit 0, w := (m.param 3).testBit 1 } else z) ∧ u.hbm = s.hbm) ∧
      (∀ ward c, (s.host.cutovers.find? fun c => decide (c.1.ward = ward)) = some (c, m) → s.rangeBusy c.maps = false →
        ∃ v : State, exec (.mappingCutoverDone ward) s = .next (v.mgmtDone m 0) ∧ (∀ x ∈ v.host.cutovers, x.1.ward ≠ ward) ∧
          (c.unmap = false → v.hbm = s.hbm) ∧
          (c.unmap = true → ∀ y ∈ c.maps, ∀ a, y.target = .hbm a → y.log = 21 →
            Smap.wf .free s.hbm.frames = true → v.frameUse (frameOf a) = .free)) ∧
      (∀ t fs, s.mgmtNew 0x14 = some m → w < 8 → s.flag .memLend_ENABLE w = false → m.param 1 % 2 ^ 21 = 0 →
        0 < m.param 1 / 2 ^ 21 → m.param 1 / 2 ^ 21 ≤ 32767 → m.param 2 < 4096 → m.param 3 < 512 →
        s.placePages (.lend w) 1 (m.param 1 / 2 ^ 21) {} = .ok (t, fs) →
        ∃ v : State, exec .lend s = .next (v.mgmtDone m 0) ∧ v.rd .memLend_ENABLE w = 1 ∧ v.rd .memLend_BORROWER_NODE w = m.param 2 ∧
          v.rd .memLend_BORROWER_WARD w = m.param 3 ∧ v.rd .memLend_SIZE w = m.param 1 / 2 ^ 21 ∧ v.hbm = t.hbm) ∧
      (s.mgmtNew 0x15 = some m → w < 8 → s.flag .memLend_ENABLE w = true → Smap.wf .free s.hbm.frames = true →
        ∃ v : State, exec .unlend s = .next (v.mgmtDone m 0) ∧ v.rd .memLend_ENABLE w = 0 ∧ v.rd .memLend_SIZE w = 0 ∧
          ∀ f, v.frameUse f = (if s.frameUse f = .lend w then .free else s.frameUse f)) ∧
      (∀ x p, s.mgmtNew 0x16 = some m → s.wardOk w = true → rangeOk (m.param 1) (m.param 4) 21 = true → s.ward w = some x →
        x.meets (m.param 1) (m.param 4) = false → m.param 3 < 8 → s.isNeighbour (m.param 2) = true →
        s.reachable (m.param 2) = true → s.overQuota w (m.param 4 / 2 ^ 21) = 0 → s.route { dest := m.param 2 } none = some p →
        p < s.hinge.ports.length →
        ∃ u, exec .borrow s = .next u ∧ u.host.mgmt = some { m with stage := 1 } ∧ (u.port p).controls =
          (s.port p).controls ++ [.windowQuery (m.param 3) w (m.param 4) ((m.param 5).testBit 1)]) ∧
      (∀ src win ward size wr, s.isReady = true → exec (.windowQuery src win ward size wr) s = .next (s.tell src
        (.windowAnswer src win (decide (win < 8) && s.windowLets win src ward wr && decide (size ≤ s.rd .memLend_SIZE win * 2 ^ 21))))) ∧
      ∀ x, s.mgmtIs 0x16 = some m → m.stage = 1 → s.ward w = some x →
        exec (.windowQueryAnswer (m.param 2) (m.param 3) false) s = .next (s.mgmtDone m cUnmapped) ∧
        ∃ (v : State) (y : Ward), exec (.windowQueryAnswer (m.param 2) (m.param 3) true) s = .next (v.mgmtDone m 0) ∧ v.ward w = some y ∧
          y.maps = x.maps ++ (List.range (m.param 4 / 2 ^ 21)).map fun i =>
            { va := m.param 1 + i * 2 ^ 21, log := 21, r := (m.param 5).testBit 0, w := (m.param 5).testBit 1,
              target := .lent (m.param 2) (m.param 3) (i * 2 ^ 21) }) ∧
  (∀ (s : State) (m : MgmtCmd) (r : RdmaOut) (bs : List Byte) (y : Mapping) (a : Nat) (w : Ward), s.host.mgmt = some m →
      m.stage = 1 → m.code = 0x11 → s.hostRts 0 = true → s.Clean → s.Wf →
      ((((s.qp 0).map (·.onWay)).getD []).find? fun x => decide (x.kind = 2)) = some r →
      s.ward (m.param 0) = some w → w.maps = [y] → y.target = .hbm a → y.va = m.param 1 → 2 ^ y.log = m.param 2 →
      0 < m.param 2 → bs.length = r.len → bs.length = m.param 2 → (∀ i < bs.length, inHbm (a + i) = inHbm a) →
      ∃ v : State, exec (.rdmaReadResponse (some bs)) s = .next (v.mgmtDone m 0) ∧ (∀ i < bs.length, v.byte (a + i) = bs.getD i 0) ∧
        ∀ x, (x < a ∨ a + bs.length ≤ x) → v.byte x = s.byte x)

/-- Wards (R340, R343, R344, R361): one that is created is active with the policy asked for and a key of its own, a policy is
changed at once in the registers, though a plan in the same cycle uses the limits that stood before, and a deletion stops the ward's requests that have not begun and waits for the
boundary. -/
def Obligations.WardCommands : Prop :=
  ∀ (s : State) (m : MgmtCmd), s.Wf →
    let w := m.param 0
    let v := m.param 1 + m.param 2 * 2 ^ 64
    let field := fun hi lo => v / 2 ^ lo % 2 ^ (hi + 1 - lo)
    let policy := fun (u : State) => u.rd .wrdPolicy_FRAME_QUOTA w = field 127 110 ∧ u.rd .wrdPolicy_QP_QUOTA w = field 109 96 ∧
      u.rd .wrdPolicy_GROUP_QUOTA w = field 95 89 ∧ u.rd .wrdPolicy_CL_MIN w = field 88 84 ∧ u.rd .wrdPolicy_CL_MAX w = field 83 79 ∧
      u.rd .wrdPolicy_POWER_FRAC w = field 78 71 ∧ u.rd .wrdPolicy_BW_FRAC w = field 70 63 ∧ u.rd .wrdPolicy_EXPERT_UNLOCK w = v % 2
    (∀ t fs, s.mgmtIs 0x40 = some m → w < 512 → s.wardActive w = false → s.policyCode w v (s.fixedOf w v true).1 = 0 →
      s.ward w = none → s.placePages (.save w) 1 (16 * field 83 79) {} = .ok (t, fs) →
      ∃ (u : State) (m' : MgmtCmd) (x : Ward), exec .wardCreate s = .next (u.mgmtDone m' 0) ∧ u.wardActive w = true ∧ policy u ∧ u.ward w = some x ∧
        x.key = Config.random s.sec.randoms ∧ x.maps = [] ∧ u.hbm = t.hbm ∧ u.rd .kvpWardStat_ABSENT w = 0) ∧
    (∀ t fs, s.mgmtIs 0x42 = some m → w < 512 → s.wardActive w = true → s.deleting w = false →
      s.policyCode w v (s.fixedOf w v false).1 = 0 →
      s.placePages (.save w) 1 (16 * field 83 79 - s.saveFrames w) {} = .ok (t, fs) →
      ∃ (u : State) (m' : MgmtCmd), exec .wardPolicy s = .next (u.mgmtDone m' 0) ∧ policy u ∧ u.wards = s.wards ∧
        u.planLimits w = s.planLimits w) ∧
    (∀ x, s.mgmtIs 0x41 = some m → m.stage = 0 → w < 512 → s.wardActive w = true → s.ward w = some x → x.deleting = false →
      (∀ g ∈ s.coll.groups, g.ward ≠ w) → (∀ q ∈ s.host.qps, q.2.holder ≠ w) →
      (∀ p < 256, s.flag .expPartnerCfg_ENABLE p = true → s.rd .expPartnerCfg_WARD p ≠ w) →
      ∃ u y, exec .wardDelete s = .next u ∧ u.host.mgmt = some { m with stage := 1 } ∧ u.ward w = some y ∧
        y.deleting = true ∧ u.wardActive w = true ∧
        (∀ r ∈ u.requests, r.ward = w → r.noCompletion = true ∧ r.phase ≠ .waiting ∧ r.phase ≠ .ready) ∧
        ∀ r, r.ward ≠ w → (r ∈ u.requests ↔ r ∈ s.requests))

/-! ### Collectives -/

/-- COL.RS, COL.AR, COL.AG and COL.A2A name an operation of an active group of their ward by its descriptor: they join the
open operation of that address, or open it (R278). Copy j counts as delivered in every chunk (R280, R281); an ALLGATHER
then sends the copies that are ready and an ALLTOALL sends its rows (R281, R286, R295). Another address under the same tag,
another KIND, or a copy beyond CONTRIBS is DESCRIPTOR; where 256 operations are open the core waits in the instruction. -/
def Obligations.CollectiveInstructions : Prop :=
  ∀ (c : Nat) (w : ScalarWord) (s : State) (t : TileCtx), s.Issues c 1 t → s.Clean → s.Wf →
    w.ok false false true false true = true → w.imm.toNat < 4096 → s.coll.early = [] →
    let k := s.core c
    let addr := k.adr w.ra.toNat
    let j := w.imm.toNat
    let s1 := s.advance c 1
    let all := [(Instr.colRs, 0), (.colAr, 1), (.colAg, 2), (.colA2a, 3)]
    addr % 64 = 0 →
    (∀ o g, s.colJoin t.ward addr = some o → s.colOp o.group o.optag = some o → s.group o.group = some g →
      (∀ f ∈ [(Instr.colRs, 0), (.colAr, 1)], o.kind = f.2 → j < o.contribs → Smap.wf 0 o.delivered = true →
        (∀ i < o.chunks, Smap.get 0 o.delivered (i * 4096 + j) = 0) →
        ∃ u v, exec (f.1 c w) s = .next u ∧ u.colOp o.group o.optag = some { o with delivered := v } ∧
          (∀ i < o.chunks, Smap.get 0 v (i * 4096 + j) = o.chunkLen i) ∧ u.core c = k.past 1 ∧
          u = { s with cores := u.cores, coll := u.coll }) ∧
      (o.kind = 2 → j < o.contribs →
        exec (.colAg c w) s = .next ((s1.deliver o.group o.optag j 0 o.n).gatherReady o.group o.optag)) ∧
      (o.kind = 3 → j = 0 → o.sentRows = false → exec (.colA2a c w) s = .next (s1.sendRows g o.optag)) ∧
      ∀ f ∈ all, (o.kind ≠ f.2 ∨ o.contribs ≤ j) → exec (f.1 c w) s = .next (s1.taskFault c cDescriptor)) ∧
    ∀ (g : Group) (a : Nat), s.colJoin t.ward addr = none → s.locate t.ward addr false = (0, .phys a) →
      let d := wordsIn (s.peek a 64)
      let w2 := (d.getD 2 0).toNat
      let gid := bits w2 50 45
      let tag := bits w2 44 29
      s.group gid = some g → g.ward = t.ward → g.phase = .active →
      (∀ f ∈ [(Instr.colRs, 0), (.colAr, 1)], s.colOp gid tag = none → colDescBad g d = false → s.coll.ops.length < 256 →
        bits w2 63 60 = f.2 → d.getD 7 0 = 0 → j ≤ bits w2 28 17 →
        ∃ u o, exec (f.1 c w) s = .next u ∧ u.colOp gid tag = some o ∧ o.addr = addr ∧ o.desc = d ∧
          o.task = (t.req, t.task) ∧ o.began = s.raw ∧ (∀ i < o.chunks, Smap.get 0 o.delivered (i * 4096 + j) = o.chunkLen i) ∧
          u.core c = k.past 1 ∧ u.mem = s.mem ∧
          u.rd .colGroupStat_OPEN_OPS gid = satN 8 ((s.coll.ops.filter fun o => decide (o.group = gid)).length + 1)) ∧
      ∀ f ∈ all,
        (s.colOp gid tag ≠ none → exec (f.1 c w) s = .next (s1.taskFault c cDescriptor)) ∧
        (s.colOp gid tag = none → colDescBad g d = false → 256 ≤ s.coll.ops.length →
          exec (f.1 c w) s = .next (s.setCore c { k with phase := .waiting, wait := some .opening, pc := k.pc % 2 ^ 64 }))

/-- What an open operation does (R282, R284, R285, R286, R288, R290, R291, R293, R295, R300): level 0 forms a chunk's value
from all its copies once; staging rounds it on its first axis and stores it in a slot, or waits for one, which a claim
grants; a partial that meets the staged value leaves its sum there; a copy or a row piece lands in DST as it came; a
finished operation closes and signals, and one that exceeds its limit faults its task with WAIT_TIMEOUT where it has not faulted. A packet of
another ward's group is refused. -/
def Obligations.CollectiveSteps : Prop :=
  ∀ (s : State) (gid tag chunk : Nat) (g : Group) (o : ColOp), s.Wf → s.Clean → s.group gid = some g → s.colOp gid tag = some o →
    let leaves := fun (i : Instr) (o' : ColOp) => ∃ u, exec i s = .next u ∧ u.colOp gid tag = some o'
    (∀ (bs : Nat → List Byte) (x : Nat) (l : List Nat), o.kind ≤ 1 → o.level0Ready chunk = true → chunk ∉ o.reduced → g.axes = x :: l →
      let wd := o.cfmt.bits / 8
      (∀ j < o.contribs, s.vread g.ward (o.word 0 + j * o.copyStride + 2048 * chunk * wd) (o.chunkLen chunk * wd) = (s, bs j, 0)) →
      let sums := (List.range (o.chunkLen chunk)).map fun i =>
        level0Elem o.isMax ((List.range o.contribs).map fun j => Num.decode o.cfmt (ofBytes (((bs j).drop (wd * i)).take wd)))
      leaves (.level0Reduction gid tag chunk) { o with reduced := chunk :: o.reduced,
                                                       vals := o.vals ++ [{ axis := x, chunk := chunk, vals := sums }] }) ∧
    ((o.level0Ready chunk = false ∨ chunk ∈ o.reduced) → exec (.level0Reduction gid tag chunk) s = .next s) ∧
    (∀ v, (o.vals.find? fun v => decide (v.chunk = chunk)) = some v → o.word 7 = 0 → o.order = none →
      let x := v.axis
      let k := axisChunk x chunk
      (∀ y ∈ o.vals, y.axis = x → chunk ≤ y.chunk) → s.slotsUsed g x < g.maxHold → k ∉ o.waiting → k ∉ o.granted →
      (s.takeSlot g x false = none → ∃ u, exec (.staging gid tag chunk) s = .next u ∧
        u.colOp gid tag = some { o with waiting := o.waiting ++ [k] } ∧
        u.rd .colSlotStat_WAIT_EVENTS (axisDie x) = satN 20 (s.rd .colSlotStat_WAIT_EVENTS (axisDie x) + 1)) ∧
      ∀ s1 n, s.takeSlot g x false = some (s1, n) → 1 < s.gSize g x → s.ringPlace g chunk x = 1 → (∀ y ∈ o.readyIn, y.1 ≠ k) →
        v.vals.length ≤ 2048 →
        let codes := if g.axes.head? = some x then
            (torusRound g (torusSeed g.tseed tag chunk 0 x (s.gRank g s.node)) (v.vals.map fun y => exactSum [(Num.decode .fp32 y).term])).1
          else v.vals
        ∃ u o', exec (.staging gid tag chunk) s = .next u ∧ u.colOp gid tag = some o' ∧
          o'.vals = o.vals.filter (fun y => !(decide (y.axis = x) && decide (y.chunk = chunk))) ∧
          o'.staged = o.staged ++ [{ axis := x, chunk := chunk, slot := n, poison := v.poison, added := true, at_ := s.raw }] ∧
          ∀ i < v.vals.length, u.peekN (slotAddr (axisDie x) n + 2 * i) 2 = codes.getD i 0 % 65536) ∧
    (∀ axis k, s.rd .colSlotStat_FREE (axisDie axis) ≠ 0 → s.firstClaim (axisDie axis) = some g → s.claimWaits g axis = true →
      (s.coll.ops.find? fun o => decide (o.group = gid) && o.waiting.any fun k => decide (keyAxis k = axis)) = some o →
      (o.waiting.find? fun k => decide (keyAxis k = axis)) = some k →
      ∃ u, exec (.slotClaimGranted gid axis) s = .next u ∧
        u.colOp gid tag = some { o with waiting := o.waiting.erase k, granted := o.granted ++ [k] } ∧
        u.rd .colSlotStat_CLAIMED (axisDie axis) = (s.rd .colSlotStat_CLAIMED (axisDie axis) + 1) % 4096 ∧
        u.rd .colSlotStat_WAITING (axisDie axis) = satN 8 (u.coll.ops.foldl (fun n o =>
          n + o.waiting.countP fun k => decide (axisDie (keyAxis k) = axisDie axis)) 0)) ∧
    (∀ p : Packet, s.fclk = true → p.dest = s.node → bits p.addr 49 44 = gid → bits p.addr 43 28 = tag →
      (g.ward ≠ p.ward → ∀ i ∈ [Instr.chunkReady, .reduceData, .gatherData, .allToAllData],
        exec (i p) s = .next (s.nakTo p cUnmapped)) ∧
      (g.ward = p.ward → g.phase ≠ .activating →
        let x := bits p.addr 27 26
        let ch := bits p.addr 23 0
        let n := o.chunkLen ch
        let staged := o.staged.find? fun y => decide (y.axis = x) && decide (y.chunk = ch)
        (staged = none → leaves (.chunkReady p) { o with readyIn := o.readyIn ++ [(axisChunk x ch, s.raw)] } ∧
          leaves (.reduceData p) { o with partials := o.partials ++
            [{ axis := x, chunk := ch, vals := chunkVals n p.data, poison := p.pz }] }) ∧
        (∀ y, staged = some y → y.slot < 2048 → s.ringPlace g ch x ≠ s.gSize g x → (∀ r ∈ o.readyIn, r.1 ≠ axisChunk x ch) →
          let at_ := slotAddr (axisDie x) y.slot
          let sums := (List.zip (chunkVals n p.data) (chunkVals n (s.peek at_ (2 * n)))).map fun q =>
            hopSum o.isMax (Num.decode g.tfmt q.1) (Num.decode g.tfmt q.2)
          let r := (torusRound g (torusSeed g.tseed tag ch 1 x (s.gRank g s.node)) sums).1
          ∃ u, exec (.reduceData p) s = .next u ∧ ∀ i < n, u.peekN (at_ + 2 * i) 2 = r.getD i 0 % 65536) ∧
        (∀ b, o.dfmt = g.tfmt → o.word 4 = 0 → p.pz = false → (∀ z ∈ g.axes, x ≤ z) →
          g.prime (s.ringNext g ch x true) x = s.ownerPos g ch x →
          (∀ i < 2 * n, s.locate g.ward (o.word 1 + 4096 * ch + i) true = (0, .phys (b + i)) ∧ inHbm (b + i) = inHbm b) →
          ∃ u o', exec (.gatherData p) s = .next u ∧ u.colOp gid tag = some o' ∧ o'.landed = ch :: o.landed ∧
            (∀ i < 2 * n, u.byte (b + i) = p.data.getD i 0) ∧ ∀ z, (z < b ∨ b + 2 * n ≤ z) → u.byte z = s.byte z) ∧
        let src := s.gRank g p.src
        let slot := bits p.addr 15 0
        let piece := bits p.addr 27 16
        (∀ b, ¬(slot = 0xFFFF ∧ piece = 0xFFF) → p.pz = false →
          (∀ i < p.data.length, s.locate g.ward (o.word 1 + (src * o.cap + slot) * o.rowBytes + 4096 * piece + i) true = (0, .phys (b + i)) ∧
            inHbm (b + i) = inHbm b) →
          ∃ u, exec (.allToAllData p) s = .next u ∧ (∀ i < p.data.length, u.byte (b + i) = p.data.getD i 0) ∧
            ∀ z, (z < b ∨ b + p.data.length ≤ z) → u.byte z = s.byte z))) ∧
    (s.colFinished g o = true → o.word 6 = 0 →
      (o.word 5 = 0 → ∃ u, exec (.operationDone gid tag) s = .next u ∧ u.colOp gid tag = none ∧
        u.rd .colGroupStat_OPEN_OPS gid = satN 8 (u.coll.ops.filter fun o => decide (o.group = gid)).length ∧ u.mem = s.mem) ∧
      (∀ l, o.word 5 ≠ 0 → s.locate g.ward (o.word 5) true = (0, .phys l) → l % 8 = 0 →
        ∃ u, exec (.operationDone gid tag) s = .next u ∧ u.colOp gid tag = none ∧
          u.peekN l 8 = (s.peekN l 8 + 1) % 2 ^ 64 ∧ ∀ z, (z < l ∨ l + 8 ≤ z) → u.byte z = s.byte z)) ∧
    ∃ u, exec (.opLimitExpiry gid tag) s = .next u ∧ u.colOp gid tag = none ∧
      u.rd .colGroupStat_FAULTS gid = satN 16 (s.rd .colGroupStat_FAULTS gid + 1) ∧
      ∀ tk, s.task o.task.1 o.task.2 = some tk → tk.phase ≠ .faulted → ∃ tk', u.task o.task.1 o.task.2 = some tk' ∧ tk'.phase = .faulted ∧
        tk'.fault = cWaitTimeout

/-- Groups (R275, R276, R289): an activation that is not refused reserves its rings' slots and sends its descriptor to its ring neighbours; with
the last neighbour's confirmation the group is active; a neighbour that disagrees fails it with WARD_MISMATCH and one that
is late with UNREACHABLE, nothing being left of it; a neighbour's descriptor is compared with the group's own; a group ends once no operation of
it is open. -/
def Obligations.GroupsComeAndGo : Prop :=
  ∀ s : State, s.Wf → s.Clean → s.hinge.ports.length = 6 → s.coll.early = [] →
    (∀ (n : Nat) (q : Gotar), s.gotar n = some q → n ≠ 0 → q.taken ≠ q.tail → s.deleting q.ward = false →
      (s.qp n).map (·.state) = some .rts →
      let r := s.vread q.ward (s.node * 2 ^ 52 + q.sqBase + q.taken % q.es * 128) 128
      let e : SubEntry := { index := q.taken, began := q.began q.taken s.raw, ws := wordsIn r.2.1 }
      r.1 = s → r.2.2 = 0 → e.reserved = false →
      let ends := fun (u : State) => ∃ v c, u.gotar n = some v ∧ v.waiting = q.waiting ++ [c] ∧ c.status = 0 ∧ c.tag = e.tag ∧ c.sq = q.taken
      (∀ (a : Nat) (x : Group), e.op = 2 → e.word 1 % 64 = 0 → s.locate q.ward (e.word 1) false = (0, .phys a) → s.coll.heard = [] →
        let ws := wordsIn (s.peek a 64)
        x.w0 = (ws.getD 0 0).toNat → x.w1 = (ws.getD 1 0).toNat → x.id = bits x.w0 63 58 → x.ward = q.ward →
        x.unlocked = s.unlockedFor q.ward → s.groupCode x ws = 0 →
        let ports := s.groupPorts x
        ∃ u y, exec (.groupAct n) s = .next u ∧ u.group x.id = some y ∧ y.ward = x.ward ∧ y.w0 = x.w0 ∧ y.w1 = x.w1 ∧
          y.waitPorts = ports ∧ (ports ≠ [] → y.phase = .activating) ∧ (ports = [] → y.phase = .active ∧ ends u) ∧
          (∀ p ∈ ports, (u.port p).controls = (s.port p).controls ++ [.groupDesc x.ward x.w0 x.w1]) ∧
          ∀ io < 2, u.rd .colSlotStat_RESERVED_SLOTS io = s.rd .colSlotStat_RESERVED_SLOTS io + x.reserveOn io) ∧
      (∀ x, e.op = 3 → s.group (bits (e.word 1) 5 0) = some x → x.ward = q.ward → x.phase = .active →
        (s.groupBusy x.id = false → ∃ u, exec (.groupDeact n) s = .next u ∧ u.group x.id = none ∧ u.rd .colGroupStat_ACTIVE x.id = 0 ∧ ends u) ∧
        (s.groupBusy x.id = true → ∃ u y, exec (.groupDeact n) s = .next u ∧ u.group x.id = some y ∧ y.phase = .ending)) ∧
      (e.op = 3 → (∀ x, s.group (bits (e.word 1) 5 0) = some x → x.ward ≠ q.ward ∨ x.phase ≠ .active) →
        ∃ u v c, exec (.groupDeact n) s = .next u ∧ u.gotar n = some v ∧ v.waiting = q.waiting ++ [c] ∧ c.status = cDescriptor)) ∧
    (∀ (gid : Nat) (x : Group), s.group gid = some x →
      (x.phase = .activating →
        let failed := fun (u : State) (code : Nat) => u.group gid = none ∧ ∀ c q, x.act = some c → s.gotar x.actQueue = some q →
          ∃ v, u.gotar x.actQueue = some v ∧ v.waiting = q.waiting ++ [{ c with status := code }]
        (∀ port ∈ x.waitPorts,
          (x.waitPorts.filter (· ≠ port) ≠ [] → ∃ u, exec (.groupConfirm gid port true) s = .next u ∧
            u.group gid = some { x with waitPorts := x.waitPorts.filter (· ≠ port) }) ∧
          (x.waitPorts.filter (· ≠ port) = [] → ∃ u y, exec (.groupConfirm gid port true) s = .next u ∧ u.group gid = some y ∧
            y.phase = .active ∧ u.rd .colGroupStat_ACTIVE gid = 1 ∧ u.rd .colGroupStat_WARD gid = x.ward % 512) ∧
          ∃ u, exec (.groupConfirm gid port false) s = .next u ∧ failed u cWardMismatch) ∧
        ∃ u, exec (.groupActTimeout gid) s = .next u ∧ failed u cUnreachable) ∧
      (x.phase = .ending → s.groupBusy gid = false → (∀ w ∈ s.wards, w.deleting = false) →
        ∃ u, exec (.groupReleased gid) s = .next u ∧ u.group gid = none ∧ u.rd .colGroupStat_ACTIVE gid = 0) ∧
      (x.phase = .ending → s.groupBusy gid = true → exec (.groupReleased gid) s = .next s)) ∧
    ∀ port ward w0 w1, s.fclk = true → s.rd .hngPortStat_STATE port = 2 → port < 6 →
      let kept := s.coll.heard.filter fun x => !(decide (x.1 = port) && decide (bits x.2.2.1 63 58 = bits w0 63 58))
      (∀ x, s.group (bits w0 63 58) = some x → ∃ u, exec (.descriptorExchange port ward w0 w1) s = .next u ∧
        (u.port port).controls = (s.port port).controls ++
          [.groupConfirm x.id (decide (x.ward = ward) && decide (x.w0 = w0) && decide (x.w1 = w1))]) ∧
      (s.group (bits w0 63 58) = none → exec (.descriptorExchange port ward w0 w1) s = .next
        { s with coll := { s.coll with heard := kept ++ [(port, ward, w0, w1)] } })

/-! ### Health, the trouble log and the journal -/

/-- Scrub, copies and control cores (R236, R237, R238, R397): a unit falls due and is read; a word with one flipped
data bit is sound again afterwards, with the bytes it had, and counted; a rebuilt copy is in use, and a control-core
fault excludes its cluster. The trouble log (R399, R401, R402): the oldest waiting entry is written as number HEAD
with the cycle count, HEAD goes on, and an entry as severe as ALERT_SEV sets ALERT and drives ALERT_N low (R400); corrections suppressed in a second
become one REPEAT entry with their count; a notice waits for room in queue pair 0's completion ring and carries HEAD. -/
def Obligations.HealthAndTroubleLog : Prop :=
  (∀ s : State, s.Wf → Smap.wf {} s.hbm.pcs = true →
      (∀ pc, s.scrubs = true → s.live pc = true → pc < 128 →
        ((s.pc pc).passDone = false → ∃ u, exec (.scrubDue pc) s = .next u ∧ (u.pc pc).scrubDue = true ∧ u = { s with hbm := u.hbm } ∧
          ∀ p, p ≠ pc → u.pc p = s.pc p) ∧
        (s.Clean → (s.pc pc).scrubDue = true → (s.pc pc).scrubPos + 1 < s.scrubUnits pc →
          (∃ u, exec (.patrolScrubRead pc []) s = .next u ∧ (u.pc pc).scrubPos = (s.pc pc).scrubPos + 1 ∧ (u.pc pc).scrubDue = false ∧
            (u.pc pc).passDone = false ∧ u.mem = s.mem ∧ u.marks = [] ∧ u.csr = s.csr) ∧
          ∀ i < 8, ∀ bit < 64, (s.pc pc).rows = [] →
            let a := unitAddr pc (s.pc pc).scrubPos + 8 * i
            ∃ u, exec (.patrolScrubRead pc [{ addr := a, mask := BitVec.ofNat 92 (2 ^ bit) }]) s = .next u ∧ (∀ x, u.byte x = s.byte x) ∧
              u.mark a = {} ∧ u.rd .hbmErrStat_CE_COUNT (pc / 32) = satN 32 (s.rd .hbmErrStat_CE_COUNT (pc / 32) + 1))) ∧
      (∀ st, s.hbm.rebuilding = true → s.liveStack st = true → st ∉ s.hbm.copies → exec (.translationCopyRebuilt st) s = .next
        { s with hbm := { s.hbm with copies := st :: s.hbm.copies, rebuilding := decide (s.hbm.copies.length = 0) } }) ∧
      ∀ g cause, s.isReady = true → g < 24 → s.clusters.length = 24 → (s.cluster g).excluded = false → (cause = 1 ∨ cause = 2) →
        ∃ u, exec (.controlCoreFault g cause) s = .next u ∧ (u.cluster g).excluded = true ∧
          (∀ h, h ≠ g → u.cluster h = s.cluster h) ∧ ∀ j < 8, u.flag .engStat_EXCLUDED (8 * g + j) = true) ∧
  (∀ s : State, s.Wf → s.sclk = true →
      (∀ e rest, s.log.queue = e :: rest → Smap.wf [] s.log.ring = true →
        let n := s.rd .logStat_HEAD
        ∃ u, exec .troubleLogWrite s = .next u ∧ Smap.get [] u.log.ring (n % 4096) = e.encode s.cycle n ∧
          (∀ k, k ≠ n % 4096 → Smap.get [] u.log.ring k = Smap.get [] s.log.ring k) ∧ u.log.queue = rest ∧
          u.rd .logStat_HEAD = (n + 1) % 2 ^ 32 ∧ (s.rd .logCfg_ALERT_SEV ≤ e.sev → u.rd .logStat_ALERT = 1 ∧
            (s.boot.resetN = true → u.alertLow = true)) ∧
          (s.flag .logCfg_NOTIFY_EN = true → 2 ≤ e.sev → u.host.notice = true) ∧ u.mem = s.mem) ∧
      (∀ pc, Smap.wf {} s.hbm.pcs = true →
        let p := s.pc pc
        (p.ceCount = 0 → ∃ u, exec (.ceLimitWindowEnd pc) s = .next u ∧ u.pc pc = { p with ceLogged := false, ceWards := [] } ∧ u.log = s.log) ∧
        (0 < p.ceCount → s.log.queue.length < 64 → ∃ u e, exec (.ceLimitWindowEnd pc) s = .next u ∧
          u.pc pc = { p with ceLogged := false, ceCount := 0, ceWards := [] } ∧ (∀ x, x ∈ u.log.queue ↔ x ∈ s.log.queue ∨ x = e) ∧
          ((∀ x ∈ s.log.queue, x.raw ≠ s.raw) → u.log.queue = s.log.queue ++ [e]) ∧ e.time = s.time ∧ e.rep = true ∧
          e.sev = 1 ∧ e.source = 1 ∧ e.event = 1 ∧ e.unit = pc ∧ e.detail = p.ceLast % 2 ^ 39 + p.ceCount * 2 ^ 48)) ∧
      ∀ q p, s.gotar 0 = some q → s.qp 0 = some p → s.host.notice = true → s.hostRts 0 = true → q.room = true → q.heldEntries = [] →
        q.rewrite = 0 → ∃ u v p' m, exec .eventNotice s = .next u ∧ u.host.notice = false ∧ u.gotar 0 = some v ∧
          v.written = (q.written + 1) % 2 ^ 32 ∧ u.qp 0 = some p' ∧ p'.unacked = p.unacked ++ [m] ∧
          u.host.out = s.host.out ++ (if s.sends 0 = true ∧ p.unsent = 0 then [(0, m)] else []) ∧ m.kind = 0 ∧ m.addr = q.cqAddr + q.written % q.ec * 32 ∧
          ofBytes (m.data.take 8) = 0xFFFFFFFF * 2 ^ 32 + 0xFFFF * 2 ^ 16 + phaseOf q.written q.ec * 64 ∧
          ofBytes ((m.data.drop 8).take 8) = s.rd .logStat_HEAD % 2 ^ 24)

/-- The Auven record and its journal (R407, R411, R413, R415, R416, R418): a second of operation is counted in one update
of the image; HISTORY records are queued by the period, by APPEND and by a shutdown, which ends the queue with its own
record; a record is programmed where the region's records end and its place taken; an erased block reads FFH, and a failed erase ends
compaction. -/
def Obligations.JournalKeepsTheRecord : Prop :=
  ∀ s : State, s.Wf → s.sclk = true → Smap.wf 0 s.journal.image = true → Smap.wf blank s.flash = true →
    let j := s.journal
    (j.recovered = true → ∃ u, exec .operatingSecondEnd s = .next u ∧ u.img 0x004 = satN 32 (s.img 0x004 + 1) ∧
      u.journal.sinceHistory = j.sinceHistory + 1 ∧ u.journal.ce = [0, 0, 0, 0] ∧ u.rd .auvSeq_SEQ = (s.rd .auvSeq_SEQ + 2) % 2 ^ 32 ∧
      u.mem = s.mem ∧ u.flash = s.flash) ∧
    (j.closing = false → j.usable = true → j.queue.length < 64 →
      let hist : JournalRec := { type := 0x02, payload := s.imageBytes }
      (j.recovered = true → 60 * s.rd .jrnCfg_PERIOD_MIN ≤ j.sinceHistory → exec .historyPeriod s = .next
        { s with journal := { j with sinceHistory := 0, queue := j.queue ++ [hist] } }) ∧
      (s.managed = true → ∀ req, exec (.append req) s = .next { s with journal := { j with queue := j.queue ++ [hist] } })) ∧
    (j.closing = false → j.usable = true → s.managed = true → ∀ req, ∃ u h r, exec (.shutdown req) s = .next u ∧
      u.journal.closing = true ∧ u.journal.queue = j.queue ++ [h, r] ∧ h.type = 0x02 ∧ r.type = 0x05 ∧ h.payload = u.imageBytes ∧
      u.img 0x00C = satN 32 (s.img 0x00C + 1)) ∧
    (∀ r rest, j.queue = r :: rest → s.mayAppend = true → r.done = 0 → j.pos + recordSize r.payload.length < compactAt →
      let bs := recordBytes r.type j.seq r.payload
      let a := regionBase j.region + j.pos
      (∃ u, exec (.journalAppend true) s = .next u ∧ u.journal = { j with queue := rest, seq := j.seq + 1, pos := j.pos + recordSize r.payload.length } ∧
        (∀ i < bs.length, u.flashByte (a + i) = bs.getD i 0) ∧ ∀ x, (x < a ∨ a + bs.length ≤ x) → u.flashByte x = s.flashByte x) ∧
      ∃ u, exec (.journalAppend false) s = .next u ∧ u.journal = { j with pos := j.pos + recordSize r.payload.length } ∧
        u.rd .jrnStat_WRITE_ERR = 1 ∧ u.flashByte a = 0) ∧
    ∀ a rest, j.erasing = a :: rest →
      (rest ≠ [] → ∃ u, exec (.blockEraseDone true) s = .next u ∧ u.journal = { j with erasing := rest } ∧
        (∀ i < 0x10000, u.flashByte (a + i) = 0xFF) ∧ ∀ x, (x < a ∨ a + 0x10000 ≤ x) → u.flashByte x = s.flashByte x) ∧
      ∃ u, exec (.blockEraseDone false) s = .next u ∧ u.rd .jrnStat_WRITE_ERR = 1 ∧ u.journal.erasing = [] ∧
        u.journal.noCompact = true ∧ ∀ x, (x < a ∨ a + 0x10000 ≤ x) → u.flashByte x = s.flashByte x

/-! ### Power -/

/-- Windows of the power manager (R362, R363, R364, R368, R372, R373, R462): a window sets a duty and a target for
every cluster, within FMAX where a ward holds it and as it was where none does, by the registers as they stood when the window's last cycle ended (R388); they reach the clusters with the
budgets, a frequency goes one step towards its target, and a regulator's voltage is what was asked of it. PWR_CAP
takes a value from 500 to 1600 W. Droop and temperature (R376, R377, R380, R381): a droop stretches the cluster's
clock and is counted, the stretch ends, and held steps resume; a reading at the alert level sets THERM_ALERT and drives ALERT_N low, and one of 105 C or more trips the device, whether it is found at a
window's end or at once. -/
def Obligations.PowerAndTemperature : Prop :=
  (∀ s : State, s.Wf → s.managed = true →
      (∀ counts temps, (∀ t ∈ temps, t < tripLevel) → ∃ u, exec (.estimationWindowEnd counts temps) s = .next u ∧ u.power.due = true ∧
        u.power.readings = temps ∧ u.rd .pwrThermStat_HOTTEST = satN 10 (temps.foldl max 0) ∧ u.mem = s.mem ∧
        ∀ g < 24,
          (s.wardOf g = none → u.power.newDuty.getD g 0 = s.rd .clkClusterStat_DUTY g ∧
            u.power.newTarget.getD g 0 = s.rd .clkClusterStat_FREQ g) ∧
          ((s.wardOf g).isSome = true → u.power.newDuty.getD g 0 < 16 ∧ u.power.newTarget.getD g 0 ≤ 28 ∧
            (s.was .clkClusterCfg_HOLD g = 0 → u.power.newTarget.getD g 0 ≤ s.was .clkClusterCfg_FMAX g) ∧
            (s.was .clkClusterCfg_HOLD g ≠ 0 → u.power.newTarget.getD g 0 ≤ s.rd .clkClusterStat_FREQ g))) ∧
      (s.power.due = true → ∃ u, exec .budgetsInForce s = .next u ∧ u.power.due = false ∧ u.hbm = { s.hbm with limits := s.power.newHbm } ∧
        ∀ g < 24, u.rd .clkClusterStat_DUTY g = s.power.newDuty.getD g 15 % 16 ∧
          u.rd .clkClusterStat_TARGET g = s.power.newTarget.getD g 28 % 32 ∧ u.rd .clkClusterStat_FREQ g = s.rd .clkClusterStat_FREQ g) ∧
      (∀ g, g < 24 → s.clusters.length = 24 → s.maySteps g = true →
        let k := s.rd .clkClusterStat_FREQ g
        let k' := if k < s.rd .clkClusterStat_TARGET g then k + 1 else k - 1
        ∃ u, exec (.frequencyStepDone g) s = .next u ∧ u.rd .clkClusterStat_FREQ g = k' % 32 ∧
          u.rd .clkClusterStat_VOLT_MV g = s.volt g k' % 1024 ∧ ∀ h < 24, h ≠ g → u.rd .clkClusterStat_FREQ h = s.rd .clkClusterStat_FREQ h) ∧
      (∀ d, d < s.dies.length →
        let x := s.die d
        (x.avsPending = true →
          exec (.avsbusResponse d true true) s = .next (s.setDie d { x with vdd := x.vddTarget, avsPending := false, avsTries := 0 }) ∧
          exec (.avsbusResponse d true false) s = .next s ∧
          ∀ settled, exec (.avsbusResponse d false settled) s = .next (s.setDie d
            (if x.avsTries < 3 then { x with avsTries := x.avsTries + 1 } else { x with avsPending := false, avsTries := 0, avsRetry := true }))) ∧
        (x.avsRetry = true →
          exec (.avsbusRetryTimer d) s = .next (s.setDie d { x with avsRetry := false, avsPending := true, avsTries := 0 }))) ∧
      ∀ req v, s.csrServes req = true → s.staging req = none → ∃ u, exec (.pwrCapWrite req v) s = .next u ∧
        u.rd .pwrCap_WATTS = max 500 (min 1600 (v.toNat % 4096)) ∧ u.was .pwrCap_WATTS = s.was .pwrCap_WATTS ∧
        u = { s with csr := u.csr, side := u.side, latch := { s.latch with old := u.latch.old } }) ∧
  (∀ s : State, s.Wf → s.managed = true →
      (∀ g, g < s.clusters.length →
        let c := s.cluster g
        (c.droop ≠ .stretched → ∃ u, exec (.droopDetected g) s = .next u ∧ u.cluster g = { c with droop := .stretched } ∧
          u.rd .clkClusterStat_STRETCH g = 1 ∧ u.rd .clkClusterStat_STRETCHES g = satN 32 (s.rd .clkClusterStat_STRETCHES g + 1) ∧
          u.maySteps g = false) ∧
        (c.droop = .stretched → ∃ u, exec (.droopStretchEnd g) s = .next u ∧ u.cluster g = { c with droop := .recovering } ∧
          u.rd .clkClusterStat_STRETCH g = 0 ∧ u.maySteps g = false) ∧
        (c.droop = .recovering → ∃ u, exec (.droopRecoveryEnd g) s = .next u ∧ u.cluster g = { c with droop := .none } ∧
          u.rd .clkClusterStat_FREQ g = s.rd .clkClusterStat_FREQ g)) ∧
      (∀ sensor reading, tripLevel ≤ reading → ∃ u, exec (.thermalTrip sensor reading) s = .next u ∧ u.boot.phase = .tripped ∧
        u.boot.thermtrip = true ∧ u.latch.out = 0 ∧ u.sclk = true ∧ u.fclk = false ∧ u.managed = false ∧ u.mem = s.mem ∧
        ∀ c < 192, (u.core c).tile = none) ∧
      (∀ sensor reading, reading < tripLevel → exec (.thermalTrip sensor reading) s = .next s) ∧
      (∀ counts temps, (∃ t ∈ temps, tripLevel ≤ t) → ∃ u, exec (.estimationWindowEnd counts temps) s = .next u ∧
        u.boot.phase = .tripped ∧ u.boot.thermtrip = true ∧ u.power = s.power) ∧
      ∀ counts temps, (∀ t ∈ temps, t < tripLevel) → 4 * s.was .pwrThermCfg_ALERT_C ≤ temps.foldl max 0 →
        ∃ u, exec (.estimationWindowEnd counts temps) s = .next u ∧ u.flag .pwrStat_THERM_ALERT = true ∧
          (s.boot.resetN = true → u.alertLow = true))

/-! ### Start-up and restart -/

/-- Supplies, reset and the steps of a start (R422, R423, R424, R426, R427, R429, R430, R432, R434, R438, R450): each step
hands the start to the next or stops it with STATE 3; step 3 begins with every register at its reset value, step 6 leaves
HBM zero with the pseudo-channels that trained live, step 7 leaves the enabled cores, and the ready report sets STATE. -/
def Obligations.StartSteps : Prop :=
  ∀ s : State, s.Wf →
    let b := s.boot
    let goes := fun (u : State) (n : Nat) => u.boot.phase = .step n ∧ u.rd .sysStartStat_STEP = n
    let stops := fun (u : State) => u.boot.phase = .stopped ∧ u.rd .sysStartStat_STATE = 3
    (b.pwrGood = false → exec (.powerOn supplyOrder) s = .next { s with boot := { b with
        pwrGood := true, thermtrip := false, clocks := false, cause := 0, phase := if b.resetN then .armed else .held } }) ∧
    (b.pwrGood = true → ∃ u, exec .pwrGoodFall s = .next u ∧ u.boot = { b with pwrGood := false, clocks := false, phase := .off } ∧
      u.latch.out = 0 ∧ u = { s.halted with boot := u.boot }) ∧
    (b.resetN = true → ∃ u, exec .resetNAssert s = .next u ∧ u.boot.resetN = false ∧ u.boot.clocks = false ∧ u.boot.thermtrip = false ∧
      u.side = {} ∧ u.flash = s.flash ∧ u.boot.phase = if b.pwrGood then .held else .off) ∧
    (b.resetN = false → ∃ u, exec .resetNRelease s = .next u ∧ u.boot.resetN = true ∧ u.side = { s.side with mayJoin := true } ∧
      u.jtag.driven = none ∧ u.jtag.hiz = false ∧ u.boot.phase = if b.pwrGood then .armed else .off) ∧
    (b.phase = .armed → b.pwrGood = true → b.resetN = true → ∃ u, exec .clockDetected s = .next u ∧ u.boot.phase = .step 3 ∧
      u.boot.clocks = true ∧ (∀ f i, f ≠ .sysStartStat_CAUSE → u.rd f i = f.info.reset) ∧ u.rd .sysStartStat_CAUSE = b.cause % 4 ∧
      u.wards = [] ∧ u.requests = [] ∧ u.log = {} ∧ u.journal = {} ∧ u.flash = s.flash ∧ u.mem = s.mem ∧ u.pending = s.pending) ∧
    (b.phase = .step 3 →
      (∀ t puf, s.chooseSlot = (t, none) → ∃ u, exec (.bootRom puf) s = .next u ∧ stops u) ∧
      ∀ t slot, s.chooseSlot = (t, some slot) → (∃ u, exec (.bootRom none) s = .next u ∧ stops u ∧ u.rd .secStat_IDENTITY = 2) ∧
        ∀ r, Config.sha512 (Config.ecdsaPublic (identityKey r)) = Config.identityCheck s.identityRegion →
          ∃ u, exec (.bootRom (some r)) s = .next u ∧ goes u 4 ∧ u.rd .secStat_IDENTITY = 1 ∧ u.rd .secStat_BOOT_SLOT = slot ∧
            u.sec.identityPub = Config.ecdsaPublic (identityKey r) ∧ u.sec.measurement = measure slot (s.slotImages slot)) ∧
    (b.phase = .step 4 →
      (∃ u, exec (.deviceControllerUp [true, true, true, true]) s = .next u ∧ goes u 5 ∧ ∀ d ∈ u.dies, d.vdd = 900) ∧
      ∀ l, false ∈ l → ∃ u, exec (.deviceControllerUp l) s = .next u ∧ stops u) ∧
    (b.phase = .step 5 → ∃ u, exec .journalRecovery s = .next u ∧ goes u 6 ∧ u.journal.recovered = true ∧ u.journal.usable = true ∧
      (s.chooseRegion = none → u.journal.cycles = 1 ∧ u.rd .jrnStat_RECOVERY = 3) ∧
      ∀ r, s.chooseRegion = some r → u.journal.cycles = (s.replayRegion r).cycles + 1 ∧ u.journal.torus = (s.replayRegion r).torus) ∧
    (b.phase = .step 6 → ∀ failed,
      let two := ∃ p q, p < 128 ∧ q < 128 ∧ p ∉ failed ∧ q ∉ failed ∧ p / 32 ≠ q / 32
      ∃ u, exec (.hbmTraining failed) s = .next u ∧ (∀ p < 128, u.live p = decide (p ∉ failed)) ∧
        (∀ i < 2 ^ 39, u.byte (hbmBase + i) = 0) ∧ (two → goes u 7 ∧ u.hbm.copies.length = 2) ∧ (¬two → stops u)) ∧
    (b.phase = .step 7 → ∀ t : SelfTest, ∃ u, exec (.selfTest t) s = .next u ∧ goes u 8 ∧ u.mem = [] ∧ u.marks = [] ∧
      (∀ i < 192, u.enabled i = (decide (i ∉ t.failedCores) && decide (i / 8 ∉ t.failedClusters))) ∧
      u.flag .pwrStat_CAL_OK = t.calOk) ∧
    (b.phase = .step 8 → ∀ links hinge up,
      ((∀ l < 8, l ∉ links) → ∃ u, exec (.linkTraining links hinge up) s = .next u ∧ goes u 9 ∧
        u.rd .hostPortStat_LINK = (if up then 2 else 1) ∧ u.boot.dieLinksUp = List.replicate 8 true) ∧
      ((∃ l < 8, l ∈ links) → ∃ u, exec (.linkTraining links hinge up) s = .next u ∧ stops u)) ∧
    (b.phase = .step 9 → ∃ u, exec .readyReport s = .next u ∧ u.boot.phase = .ready ∧
      u.rd .sysStartStat_STATE = (if s.degraded then 2 else 1) ∧ u.side.ibi = s.side.ibi ++ [if s.degraded then 0xA1 else 0xA0] ∧
      u.latch.since = 0 ∧ u.isReady = true) ∧
    ∀ n, b.phase = .step n → 3 ≤ n → ∃ u, exec .startStepTimeout s = .next u ∧ stops u ∧ u.side.ibi = s.side.ibi ++ [0xAF]

/-- Restarts (R435, R436, R437, R438): an immediate restart, and an orderly one before the ready report, begins step 3 at
once with the leave flit on every up hinge port; an orderly one of a ready device shuts down first and restarts once its
SHUTDOWN record is written. The host may ask for neither. -/
def Obligations.Restarts : Prop :=
  ∀ (s : State) (req : Requester), s.Wf →
    exec (.orderlyRestart .host) s = .next s ∧ exec (.immediateRestart .host) s = .next s ∧
    (req ≠ .host → s.restarts = true →
      let begun := fun (i : Instr) (cause : Nat) => ∃ u, exec i s = .next u ∧ u.boot.phase = .step 3 ∧ u.rd .sysStartStat_CAUSE = cause ∧
        u.rd .sysStartStat_STATE = 0 ∧ u.flash = s.flash ∧ u.pending = s.pending ∧ u.side.addr = s.side.addr ∧
        ∀ p < 6, (u.port p).controls = if s.rd .hngPortStat_STATE p = 2 then [.leave] else []
      begun (.immediateRestart req) 3 ∧
      (s.isReady = false → s.boot.phase ≠ .fatal → begun (.orderlyRestart req) 3) ∧
      (s.isReady = true → s.updating = false →
        (s.journal.usable = false → begun (.orderlyRestart req) 2) ∧
        (s.journal.usable = true → s.journal.full = false → s.journal.closing = false → ∃ u h r, exec (.orderlyRestart req) s = .next u ∧
          u.journal.closing = true ∧ u.journal.queue = s.journal.queue ++ [h, r] ∧ h.type = 0x02 ∧ r.type = 0x05 ∧ r.done = 4 ∧
          u.boot = s.boot)) ∧
      (s.isReady = true → s.updating = true → exec (.orderlyRestart req) s = .next { s with boot := { s.boot with restartWaits := true } })) ∧
    ∀ r, s.journal.queue = [r] → r.type = 0x05 → r.done = 4 → s.mayAppend = true →
      s.journal.pos + recordSize r.payload.length ≤ regionSize →
      ∃ u, exec (.journalAppend true) s = .next u ∧ u.boot.phase = .step 3 ∧ u.rd .sysStartStat_CAUSE = 2

/-! ### The CSR bus, the I3C target and JTAG -/

/-- One word written to a register without behaviour of its own (R439, R445, R446, R449, Tables 0.4 and 19.3): an offset
that names none does nothing; a read-only field and one that the requester may not write stay, a W1C field loses the bits
written as 1, a writable one takes the value, as its table limits it, and an RWX one only where expert control is unlocked, an
ignored change being remembered in IGNORED_SEEN. -/
def Obligations.RegisterWrites : Prop :=
  ∀ (req : Requester) (off : Nat) (v : Word) (s : State), s.Wf → s.csrServes req = true → off % 8 = 0 → off < 2 ^ 28 →
    s.staging req = none →
    (Reg.atCsr off = none → exec (.registerWrite req off v) s = .next s) ∧
    ∀ r i, Reg.atCsr off = some (r, i, 0) → r.loc.words = 1 → s.csrReach (off / 2 ^ 24) = true →
      r ∉ [Reg.hngTorusCfg, .expPartnerCfg, .expPortCfg, .pwrThermCfg, .coreExcRecord, .jrnCtl, .sysRestart, .logFilter] →
      ∃ u, exec (.registerWrite req off v) s = .next u ∧ u = { s with csr := u.csr, side := u.side, latch := u.latch, hinge := u.hinge } ∧
        (r ≠ .sysTimeOffset → u.hinge = s.hinge ∧ u.latch = { s.latch with old := u.latch.old }) ∧ (∀ g j, u.was g j = s.was g j ∨ g.info.acc = .w1c) ∧
        ∀ f ∈ r.fields,
          ((f.info.acc = .ro ∨ f.info.acc = .wo ∨ mayWrite req f = false) → u.rd f i = s.rd f i) ∧
          (mayWrite req f = true →
            let x := f.of v.toNat
            let takes := fun k => match fieldTakes f x with | some y => k = y % 2 ^ f.width | none => k = s.rd f i
            (f.info.acc = .w1c → ∀ bit < f.width, (u.rd f i).testBit bit = ((s.rd f i).testBit bit && !x.testBit bit)) ∧
            (f.info.acc = .rw → takes (u.rd f i)) ∧
            (f.info.acc = .rwx → s.rwxOpen r i = true → takes (u.rd f i)) ∧
            (f.info.acc = .rwx → s.rwxOpen r i = false → u.rd f i = s.rd f i ∧
              (x ≠ s.rd f i → u.rd .sysExpertCtl_IGNORED_SEEN = 1)))

/-- The registers whose writes act (R202, R203, R227, R453, R455): the time offset, which changes device time from the next
cycle on, a keyway's commit, ENABLE of a partner
whose configuration is valid or not and its withdrawal, and queue pair 0's CONNECT and DROP. -/
def Obligations.RegistersThatAct : Prop :=
  ∀ (req : Requester) (v : Word) (s : State), s.Wf →
    (s.csrServes req = true → s.staging req = none → s.csrReach 0 = true → ∃ u, exec (.sysTimeOffsetWrite req v) s = .next u ∧
      u.rd .sysTimeOffset_OFFSET = v.toNat ∧ u.raw = s.raw ∧ u.time = s.time ∧
      ∀ t, tick u = .next t → (s.hinge.following = none ∨ s.hinge.timeLocked = false) → t.time = unsignedOf 64 ((t.raw : Int) + v.toInt)) ∧
    (∀ w0, s.csrServes req = true → s.csrReach 1 = true →
      s.staging req = some { offset := Reg.expKeywayLoad.offset 1 0, words := [(0, w0, 2 ^ 64 - 1)] } → w0 < 2 ^ 64 → v.toNat < 512 → s.Clean →
      let slot := bits w0 5 0
      let free := ∀ p < 256, s.flag .expPartnerCfg_ENABLE p = true → s.rd .expPartnerCfg_KEYWAY p ≠ slot
      (∀ a, s.wardActive v.toNat = true → s.locate v.toNat (w0 / 64 * 64) false = (0, .phys a) → free →
        let ws := wordsIn (s.peek a 64)
        keywayOk ws = true → (bits (ws.getD 0 0).toNat 63 60 ≠ 0 ∨ s.unlocked = true) → Smap.wf [] s.exporter.keyways = true →
        ∃ u, exec (.keywayLoad req v) s = .next u ∧ Smap.get [] u.exporter.keyways slot = ws ∧ u.csr = s.csr ∧ u.staging req = none) ∧
      (s.wardActive v.toNat = false ∨ ¬free → ∃ u, exec (.keywayLoad req v) s = .next u ∧ u.rd .expKeywayStat_ERR = 1 ∧ u.exporter = s.exporter)) ∧
    (∀ p, s.csrServes req = true → s.csrReach 1 = true → s.staging req = none → p < 256 →
      (enables v = true → s.flag .expPartnerCfg_ENABLE p = false → ∃ u t : State, exec (.partnerEnable req p v) s = .next u ∧
        t.rd .expPartnerCfg_WARD p = bits v.toNat 62 54 ∧ t.rd .expPartnerCfg_PORT_MASK p = bits v.toNat 53 50 ∧
        t.rd .expPartnerCfg_KEYWAY p = bits v.toNat 41 36 ∧ t.rd .expPartnerCfg_QP_BASE p = bits v.toNat 35 22 ∧
        t = { s with csr := t.csr, side := t.side, latch := { s.latch with old := t.latch.old } } ∧
        (t.partnerOk p = true → u.flag .expPartnerCfg_ENABLE p = true ∧ u.rd .expPartnerStat_STATE p = 1 ∧ u.rd .expPartnerStat_BAD_GRANTS p = 0) ∧
        (t.partnerOk p = false → u.flag .expPartnerCfg_ENABLE p = false ∧ u.rd .expPartnerStat_STATE p = 3 ∧ u.rd .expPartnerStat_CAUSE p = 1)) ∧
      (enables v = false → s.flag .expPartnerCfg_ENABLE p = true → ∃ u, exec (.partnerDisable req p v) s = .next u ∧
        u.flag .expPartnerCfg_ENABLE p = false ∧ u.rd .expPartnerStat_STATE p = 2 ∧ u.rd .expPartnerStat_CAUSE p = 7)) ∧
    (s.csrUp = true → s.csrReach 0 = true → s.staging .i3c = none →
      (v.toNat.testBit 0 = true → v.toNat.testBit 1 = false →
        (s.rd .hostQp0Cfg_STATE ≠ 1 → s.qp0Valid = true → ∃ u g, exec (.connect v) s = .next u ∧ u.qp 0 = some s.qp0 ∧
          u.rd .hostQp0Cfg_STATE = 1 ∧ u.rd .hostQp0Cfg_CFG_ERR = 0 ∧ u.gotar 0 = some g ∧ g.es = 2048 ∧
          g.cqAddr = s.rd .hostQp0Cfg_CQ_ADDR ∧ g.ec = 2 ^ s.rd .hostQp0Cfg_EC_LOG2) ∧
        (s.rd .hostQp0Cfg_STATE ≠ 1 → s.qp0Valid = false → ∃ u, exec (.connect v) s = .next u ∧ u.rd .hostQp0Cfg_CFG_ERR = 1 ∧ u.host = s.host) ∧
        (s.rd .hostQp0Cfg_STATE = 1 → ∃ u, exec (.connect v) s = .next u ∧ u.host = s.host ∧ u.csr = s.csr)) ∧
      (v.toNat.testBit 0 = false → v.toNat.testBit 1 = true → ∃ u, exec (.drop v) s = .next u ∧ u.rd .hostQp0Cfg_STATE = 2 ∧
        ∀ q, s.qp 0 = some q → q.state = .rts → ∃ q', u.qp 0 = some q' ∧ q'.state = .error))

/-- The I3C target (R451, R452): a private write sets the pointer, writes its words or is refused, a private read
answers STATUS and the words pointed at, on SMBus after their count and with a PEC checked; the common command codes change its address and its events or are answered;
Hot-Join is asked for once. Nothing but the words written
changes outside the target, free values aside. JTAG (R468): an
instruction that takes pins does so only while RESET_N is low and otherwise acts as BYPASS; the others leave the pins
alone; nothing outside the TAP changes. -/
def Obligations.SidebandAndJtag : Prop :=
  (∀ s : State, s.sideUp = true →
      let x := s.side
      let only := fun (i : Instr) (y : Sideband) => exec i s = .next { s with side := y }
      let met : Sideband := if x.addr.isNone then { x with smbus := true } else x
      let wire := fun bs : List Byte => if met.smbus then bytesOf 1 bs.length ++ bs else bs
      (∀ data, (sideHead data).op ≠ 0x20 →
        let h := sideHead data
        let d := if met.smbus then dropPec data else data
        (sideOk d = false → only (.setPointer data) { met with status := 2, reading := false }) ∧
        (sideOk d = true → (∀ i < h.len, s.sideReads (h.offset + 8 * i) = true) →
          only (.setPointer data) { met with pointer := h.offset, len := h.len, status := 0, reading := true }) ∧
        (sideOk d = true → (∃ i < h.len, s.sideReads (h.offset + 8 * i) = false) →
          only (.setPointer data) { met with status := 1, reading := false })) ∧
      (∀ data, (sideHead data).op = 0x20 →
        let h := sideHead data
        let d := if met.smbus then dropPec data else data
        (sideOk d = false → only (.writeWords data) { met with status := 2, reading := false }) ∧
        (sideOk d = true → h.len = 1 → s.sideWrites h.offset = true → ∃ u t : State, exec (.writeWords data) s = .next u ∧
          t = ({ s with side := met } : State).csrPut .i3c h.offset (ofBytes ((d.drop 6).take 8)) ∧
          u = { t with side := { t.side with status := 0, reading := false } }) ∧
        (sideOk d = true → (∀ i < h.len, s.sideWrites (h.offset + 8 * i) = false) →
          only (.writeWords data) { met with status := 1, reading := false })) ∧
      ((x.reading = false → only .privateRead { met with answer := wire (bytesOf 1 x.status) }) ∧
        (x.reading = true → (∀ i < x.len, s.sideReads (x.pointer + 8 * i) = true) → only .privateRead { met with
          answer := wire (bytesOf 1 x.status ++ s.csrReadWords .i3c x.pointer x.len), pointer := x.pointer + 8 * x.len })) ∧
      (x.smbus = false →
        only .rstdaa { x with addr := none } ∧
        (x.addr = none → ∀ a, only (.setdasa a) { x with addr := some a.toNat, hotJoin := false } ∧
          only (.entdaa a) { x with addr := some a.toNat, hotJoin := false }) ∧
        (∀ a b, x.addr = some a → only (.setdasa b) x ∧ only (.entdaa b) x) ∧
        (∀ e : BitVec 8, ∃ y, only (.enec e) y ∧ y = { x with events := y.events } ∧
          (∀ n, y.events.testBit n = (x.events.testBit n || (e.toNat.testBit n && (decide (n = 0) || decide (n = 3)))))) ∧
        (∀ e : BitVec 8, x.events < 256 → ∃ y, only (.disec e) y ∧ y = { x with events := y.events } ∧
          (∀ n, y.events.testBit n = (x.events.testBit n && !e.toNat.testBit n))) ∧
        (x.addr.isSome = true → ∀ i ∈ [(Instr.getpid, 6), (.getbcr, 1), (.getdcr, 1), (.getstatus, 2), (.getmxds, 2)],
          ∃ u bs, exec i.1 s = .next u ∧ bs.length = i.2 ∧ u = { s with freeCount := u.freeCount, side := { x with answer := bs } }) ∧
        (x.mayJoin = true → x.addr = none → x.events.testBit 3 = true → only .hotJoin { x with mayJoin := false, hotJoin := true }) ∧
        (x.mayJoin = false → only .hotJoin x))) ∧
  (∀ (s : State) (n : Nat) (trst : Bool),
      let j := s.jtag
      let leaves := fun (i : Instr) (k : Jtag) => exec i s = .next { s with jtag := k }
      let off := fun (ir : JtagIr) => { j with ir := ir, driven := none, hiz := false }
      leaves .bypass (off .bypass) ∧ leaves (.tapReset trst) (off .idcode) ∧
      (∃ v, leaves .idcode { off .idcode with captured := v } ∧ v % 2 = 1 ∧ v / 2 ^ 12 = 0x4E04 ∧ v / 2 % 2 ^ 11 = Config.jepCode.toNat) ∧
      (∃ u v, exec (.samplePreload n) s = .next u ∧ u = { s with freeCount := s.freeCount + 1, jtag := { off .samplePreload with
        preload := n, captured := v } }) ∧
      (s.boot.resetN = false →
        leaves (.extest n) { j with ir := .extest, preload := n, driven := some n, hiz := false } ∧
        leaves .extestPulse { j with ir := .extestPulse, driven := some j.preload, hiz := false } ∧
        leaves .extestTrain { j with ir := .extestTrain, driven := some j.preload, hiz := false } ∧
        leaves .clamp { j with ir := .clamp, driven := some j.preload, hiz := false } ∧
        leaves .highz { j with ir := .highz, driven := none, hiz := true }) ∧
      (s.boot.resetN = true → ∀ i ∈ [Instr.extest n, .extestPulse, .extestTrain, .clamp, .highz], leaves i (off .bypass)))

/-! ### The whole machine -/

/-- No command stops the machine but POWER_ON with supplies in an order that R422 does not allow, and none is refused. -/
def Obligations.OnlyTheSupplyOrderStops : Prop :=
  ∀ (i : Instr) (s : State),
    ((∀ order, i = .powerOn order → s.boot.pwrGood = true ∨ order = supplyOrder) → ∃ u, exec i s = .next u) ∧
    (∀ r, exec i s ≠ .refused r) ∧
    ∀ f, exec i s = .fault f → f = .supplyOrder ∧ s.boot.pwrGood = false ∧ ∃ order, i = .powerOn order ∧ order ≠ supplyOrder

/-- The machine after reset: register map, memory and marks are in canonical form, nothing waits, and every register
reads its reset value (R450); 192 cores idle (R11), and no clock runs until RESET_N rises (R423). -/
def Obligations.ResetIsCanonical : Prop :=
  State.reset.Wf ∧ State.reset.pending = [] ∧ (∀ f i, State.reset.rd f i = f.info.reset) ∧ (∀ a, State.reset.byte a = 0) ∧
    State.reset.cores.length = 192 ∧ (∀ c, (State.reset.core c).phase = .idle) ∧ State.reset.sclk = false ∧ State.reset.boot.resetN = false

/-- Every step keeps the canonical form of register map, memory and marks. -/
def Obligations.StepKeepsCanonicalForm : Prop :=
  ∀ s t : State, s.Wf → step s = .next t → t.Wf
end

