-- ==== Sys2Proof/Laws/Smap.lean ====
section
/-! SUPPORT. Laws of the sparse maps: what a read gives after a write, and that the operations keep the canonical form. -/
namespace Sys2Proof.Machine

theorem Smap.wfFrom_mono {β : Type} [DecidableEq β] {d : β} {lo lo' : Nat} (h : lo' ≤ lo) :
    ∀ {m : List (Nat × β)}, Smap.wfFrom d lo m = true → Smap.wfFrom d lo' m = true
  | [], _ => rfl
  | (k, v) :: m, hm => by
    simp only [Smap.wfFrom, Bool.and_eq_true, decide_eq_true_eq] at hm ⊢
    exact ⟨⟨by omega, hm.1.2⟩, hm.2⟩

/-- Below its first key a canonical map holds the default. -/
theorem Smap.get_of_lt {β : Type} [DecidableEq β] {d : β} {lo x : Nat} (h : x < lo) :
    ∀ {m : List (Nat × β)}, Smap.wfFrom d lo m = true → Smap.get d m x = d
  | [], _ => rfl
  | (k, v) :: m, hm => by
    simp only [Smap.wfFrom, Bool.and_eq_true, decide_eq_true_eq] at hm
    simp only [Smap.get]
    rw [if_neg (by omega), if_pos (by omega)]

/-- A read at the key just written gives the value written. -/
theorem Smap.get_put_self {β : Type} [DecidableEq β] (d : β) (x : Nat) (w : β) :
    ∀ {lo : Nat} {m : List (Nat × β)}, Smap.wfFrom d lo m = true → Smap.get d (Smap.put d m x w) x = w
  | _, [], _ => by
    by_cases hw : w = d <;> simp [Smap.put, hw, Smap.get]
  | lo, (k, v) :: m, hm => by
    simp only [Smap.wfFrom, Bool.and_eq_true, decide_eq_true_eq] at hm
    simp only [Smap.put]
    split
    · next hxk =>
      by_cases hw : w = d
      · simp only [hw, if_true]
        exact Smap.get_of_lt (by omega) hm.2
      · simp [hw, Smap.get]
    · split
      · by_cases hw : w = d
        · simp only [hw, if_true]
          simp only [Smap.get]
          rw [if_neg (by omega), if_pos (by omega)]
        · simp [hw, Smap.get]
      · simp only [Smap.get]
        rw [if_neg (by omega), if_neg (by omega)]
        exact Smap.get_put_self d x w hm.2

/-- A write leaves every other key alone. -/
theorem Smap.get_put_other {β : Type} [DecidableEq β] (d : β) {x y : Nat} (w : β) (h : y ≠ x) :
    ∀ {lo : Nat} {m : List (Nat × β)}, Smap.wfFrom d lo m = true → Smap.get d (Smap.put d m x w) y = Smap.get d m y
  | _, [], _ => by
    by_cases hw : w = d
    · simp [Smap.put, hw, Smap.get]
    · simp only [Smap.put, hw, if_false, Smap.get, if_neg h, ite_self]
  | lo, (k, v) :: m, hm => by
    simp only [Smap.wfFrom, Bool.and_eq_true, decide_eq_true_eq] at hm
    simp only [Smap.put]
    split
    · next hxk =>
      by_cases hw : w = d
      · simp only [hw, if_true, Smap.get]
        rw [if_neg (by omega)]
        split
        · exact Smap.get_of_lt (by omega) hm.2
        · rfl
      · simp only [hw, if_false, Smap.get]
        rw [if_neg h, hxk, if_neg (c := y = k) (hxk ▸ h)]
    · next hxk =>
      split
      · next hlt =>
        by_cases hw : w = d
        · simp only [hw, if_true]
        · simp only [hw, if_false]
          by_cases hy : y < x
          · simp only [Smap.get]
            rw [if_neg h, if_pos hy, if_neg (by omega), if_pos (by omega)]
          · simp only [Smap.get]
            rw [if_neg h, if_neg hy]
      · simp only [Smap.get]
        split
        · rfl
        · split
          · rfl
          · exact Smap.get_put_other d w h hm.2

/-- A write keeps the canonical form. -/
theorem Smap.put_wfFrom {β : Type} [DecidableEq β] (d : β) (w : β) :
    ∀ {lo x : Nat} {m : List (Nat × β)}, lo ≤ x → Smap.wfFrom d lo m = true → Smap.wfFrom d lo (Smap.put d m x w) = true
  | lo, x, [], hx, _ => by
    by_cases hw : w = d <;> simp [Smap.put, hw, Smap.wfFrom, hx]
  | lo, x, (k, v) :: m, hx, hm => by
    have hm' := hm
    simp only [Smap.wfFrom, Bool.and_eq_true, decide_eq_true_eq] at hm
    simp only [Smap.put]
    split
    · next hxk =>
      by_cases hw : w = d
      · simp only [hw, if_true]
        exact Smap.wfFrom_mono (by omega) hm.2
      · simp only [hw, if_false, Smap.wfFrom, Bool.and_eq_true, decide_eq_true_eq]
        exact ⟨⟨hx, hw⟩, hxk ▸ hm.2⟩
    · split
      · by_cases hw : w = d
        · simp only [hw, if_true]
          exact hm'
        · simp only [hw, if_false, Smap.wfFrom, Bool.and_eq_true, decide_eq_true_eq]
          exact ⟨⟨hx, hw⟩, ⟨by omega, hm.1.2⟩, hm.2⟩
      · simp only [Smap.wfFrom, Bool.and_eq_true, decide_eq_true_eq]
        exact ⟨hm.1, Smap.put_wfFrom d w (by omega) hm.2⟩

theorem Smap.put_wf {β : Type} [DecidableEq β] {d : β} {m : List (Nat × β)} (x : Nat) (w : β)
    (h : Smap.wf d m = true) : Smap.wf d (Smap.put d m x w) = true :=
  Smap.put_wfFrom d w (Nat.zero_le x) h

theorem Smap.filter_wfFrom {β : Type} [DecidableEq β] (d : β) (p : Nat × β → Bool) :
    ∀ {lo : Nat} {m : List (Nat × β)}, Smap.wfFrom d lo m = true → Smap.wfFrom d lo (m.filter p) = true
  | _, [], _ => rfl
  | lo, (k, v) :: m, hm => by
    simp only [Smap.wfFrom, Bool.and_eq_true, decide_eq_true_eq] at hm
    have ih := Smap.filter_wfFrom d p hm.2
    simp only [List.filter_cons]
    split
    · simp only [Smap.wfFrom, Bool.and_eq_true, decide_eq_true_eq]
      exact ⟨hm.1, ih⟩
    · exact Smap.wfFrom_mono (by omega) ih

/-- Clearing a range keeps the canonical form. -/
theorem Smap.clear_wf {β : Type} [DecidableEq β] {d : β} {m : List (Nat × β)} (lo n : Nat)
    (h : Smap.wf d m = true) : Smap.wf d (Smap.clear m lo n) = true :=
  Smap.filter_wfFrom d _ h

/-- Writing several entries keeps the canonical form. -/
theorem Smap.putAll_wf {β : Type} [DecidableEq β] {d : β} :
    ∀ (l : List (Nat × β)) {m : List (Nat × β)}, Smap.wf d m = true → Smap.wf d (Smap.putAll d m l) = true
  | [], _, h => h
  | e :: l, _, h => Smap.putAll_wf l (Smap.put_wf e.1 e.2 h)

/-- A filtered canonical map holds a value where the key passes the filter, the default elsewhere. -/
theorem Smap.get_filter {β : Type} [DecidableEq β] (d : β) (p : Nat → Bool) (x : Nat) :
    ∀ {lo : Nat} {m : List (Nat × β)}, Smap.wfFrom d lo m = true →
      Smap.get d (m.filter fun kv => p kv.1) x = if p x then Smap.get d m x else d
  | _, [], _ => by simp [Smap.get]
  | lo, (k, v) :: m, hm => by
    simp only [Smap.wfFrom, Bool.and_eq_true, decide_eq_true_eq] at hm
    have ih := Smap.get_filter d p x hm.2
    have hf := Smap.filter_wfFrom d (fun kv => p kv.1) hm.2
    rw [List.filter_cons]
    split
    · next hp =>
      simp only at hp
      simp only [Smap.get]
      split
      · next hxk => rw [hxk, if_pos hp]
      · split
        · exact (ite_self d).symm
        · exact ih
    · next hp =>
      simp only at hp
      rw [ih]
      by_cases hpx : p x = true
      · rw [if_pos hpx, if_pos hpx]
        simp only [Smap.get]
        rw [if_neg (fun he : x = k => hp (he ▸ hpx))]
        split
        · next hlt => exact Smap.get_of_lt (by omega) hm.2
        · rfl
      · rw [if_neg hpx, if_neg hpx]

/-- A cleared range reads as the default, every other key as before. -/
theorem Smap.get_clear {β : Type} [DecidableEq β] {d : β} {m : List (Nat × β)} (lo n x : Nat)
    (h : Smap.wf d m = true) :
    Smap.get d (Smap.clear m lo n) x = if lo ≤ x ∧ x < lo + n then d else Smap.get d m x := by
  unfold Smap.clear
  rw [Smap.get_filter d (fun k => !(decide (lo ≤ k) && decide (k < lo + n))) x h]
  by_cases hx : lo ≤ x ∧ x < lo + n
  · simp [hx]
  · rw [if_neg hx]
    have : (!(decide (lo ≤ x) && decide (x < lo + n))) = true := by simp; omega
    rw [if_pos this]

end Sys2Proof.Machine
end

