-- ==== Sys2Proof/Laws/State.lean ====
section
/-! SUPPORT. Laws of the state's records: what each of the named updates leaves alone, field by field, and what a read
gives after it. -/
namespace Sys2Proof.Machine

variable (s : State)

@[simp] theorem State.wr_pending (f : Fld) (i v : Nat) : (s.wr f i v).pending = s.pending := rfl
@[simp] theorem State.wr_freeCount (f : Fld) (i v : Nat) : (s.wr f i v).freeCount = s.freeCount := rfl
@[simp] theorem State.wr_mem (f : Fld) (i v : Nat) : (s.wr f i v).mem = s.mem := rfl
@[simp] theorem State.wr_marks (f : Fld) (i v : Nat) : (s.wr f i v).marks = s.marks := rfl
@[simp] theorem State.wr_cores (f : Fld) (i v : Nat) : (s.wr f i v).cores = s.cores := rfl
@[simp] theorem State.wr_clusters (f : Fld) (i v : Nat) : (s.wr f i v).clusters = s.clusters := rfl
@[simp] theorem State.wr_dies (f : Fld) (i v : Nat) : (s.wr f i v).dies = s.dies := rfl
@[simp] theorem State.wr_requests (f : Fld) (i v : Nat) : (s.wr f i v).requests = s.requests := rfl
@[simp] theorem State.wr_images (f : Fld) (i v : Nat) : (s.wr f i v).images = s.images := rfl
@[simp] theorem State.wr_wards (f : Fld) (i v : Nat) : (s.wr f i v).wards = s.wards := rfl
@[simp] theorem State.wr_hbm (f : Fld) (i v : Nat) : (s.wr f i v).hbm = s.hbm := rfl
@[simp] theorem State.wr_hinge (f : Fld) (i v : Nat) : (s.wr f i v).hinge = s.hinge := rfl
@[simp] theorem State.wr_coll (f : Fld) (i v : Nat) : (s.wr f i v).coll = s.coll := rfl
@[simp] theorem State.wr_host (f : Fld) (i v : Nat) : (s.wr f i v).host = s.host := rfl
@[simp] theorem State.wr_exporter (f : Fld) (i v : Nat) : (s.wr f i v).exporter = s.exporter := rfl
@[simp] theorem State.wr_power (f : Fld) (i v : Nat) : (s.wr f i v).power = s.power := rfl
@[simp] theorem State.wr_latch (f : Fld) (i v : Nat) : (s.wr f i v).latch = s.latch := rfl
@[simp] theorem State.wr_log (f : Fld) (i v : Nat) : (s.wr f i v).log = s.log := rfl
@[simp] theorem State.wr_journal (f : Fld) (i v : Nat) : (s.wr f i v).journal = s.journal := rfl
@[simp] theorem State.wr_flash (f : Fld) (i v : Nat) : (s.wr f i v).flash = s.flash := rfl
@[simp] theorem State.wr_sec (f : Fld) (i v : Nat) : (s.wr f i v).sec = s.sec := rfl
@[simp] theorem State.wr_boot (f : Fld) (i v : Nat) : (s.wr f i v).boot = s.boot := rfl
@[simp] theorem State.wr_side (f : Fld) (i v : Nat) : (s.wr f i v).side = s.side := rfl
@[simp] theorem State.wr_jtag (f : Fld) (i v : Nat) : (s.wr f i v).jtag = s.jtag := rfl

@[simp] theorem State.bump_pending (f : Fld) (i n : Nat) : (s.bump f i n).pending = s.pending := rfl
@[simp] theorem State.bump_freeCount (f : Fld) (i n : Nat) : (s.bump f i n).freeCount = s.freeCount := rfl
@[simp] theorem State.bump_mem (f : Fld) (i n : Nat) : (s.bump f i n).mem = s.mem := rfl
@[simp] theorem State.bump_marks (f : Fld) (i n : Nat) : (s.bump f i n).marks = s.marks := rfl
@[simp] theorem State.bump_cores (f : Fld) (i n : Nat) : (s.bump f i n).cores = s.cores := rfl
@[simp] theorem State.bump_clusters (f : Fld) (i n : Nat) : (s.bump f i n).clusters = s.clusters := rfl
@[simp] theorem State.bump_dies (f : Fld) (i n : Nat) : (s.bump f i n).dies = s.dies := rfl
@[simp] theorem State.bump_requests (f : Fld) (i n : Nat) : (s.bump f i n).requests = s.requests := rfl
@[simp] theorem State.bump_images (f : Fld) (i n : Nat) : (s.bump f i n).images = s.images := rfl
@[simp] theorem State.bump_wards (f : Fld) (i n : Nat) : (s.bump f i n).wards = s.wards := rfl
@[simp] theorem State.bump_hbm (f : Fld) (i n : Nat) : (s.bump f i n).hbm = s.hbm := rfl
@[simp] theorem State.bump_hinge (f : Fld) (i n : Nat) : (s.bump f i n).hinge = s.hinge := rfl
@[simp] theorem State.bump_coll (f : Fld) (i n : Nat) : (s.bump f i n).coll = s.coll := rfl
@[simp] theorem State.bump_host (f : Fld) (i n : Nat) : (s.bump f i n).host = s.host := rfl
@[simp] theorem State.bump_exporter (f : Fld) (i n : Nat) : (s.bump f i n).exporter = s.exporter := rfl
@[simp] theorem State.bump_power (f : Fld) (i n : Nat) : (s.bump f i n).power = s.power := rfl
@[simp] theorem State.bump_latch (f : Fld) (i n : Nat) : (s.bump f i n).latch = s.latch := rfl
@[simp] theorem State.bump_log (f : Fld) (i n : Nat) : (s.bump f i n).log = s.log := rfl
@[simp] theorem State.bump_journal (f : Fld) (i n : Nat) : (s.bump f i n).journal = s.journal := rfl
@[simp] theorem State.bump_flash (f : Fld) (i n : Nat) : (s.bump f i n).flash = s.flash := rfl
@[simp] theorem State.bump_sec (f : Fld) (i n : Nat) : (s.bump f i n).sec = s.sec := rfl
@[simp] theorem State.bump_boot (f : Fld) (i n : Nat) : (s.bump f i n).boot = s.boot := rfl
@[simp] theorem State.bump_side (f : Fld) (i n : Nat) : (s.bump f i n).side = s.side := rfl
@[simp] theorem State.bump_jtag (f : Fld) (i n : Nat) : (s.bump f i n).jtag = s.jtag := rfl

@[simp] theorem State.setCore_pending (i : Nat) (k : Core) : (s.setCore i k).pending = s.pending := rfl
@[simp] theorem State.setCore_freeCount (i : Nat) (k : Core) : (s.setCore i k).freeCount = s.freeCount := rfl
@[simp] theorem State.setCore_csr (i : Nat) (k : Core) : (s.setCore i k).csr = s.csr := rfl
@[simp] theorem State.setCore_mem (i : Nat) (k : Core) : (s.setCore i k).mem = s.mem := rfl
@[simp] theorem State.setCore_marks (i : Nat) (k : Core) : (s.setCore i k).marks = s.marks := rfl
@[simp] theorem State.setCore_clusters (i : Nat) (k : Core) : (s.setCore i k).clusters = s.clusters := rfl
@[simp] theorem State.setCore_dies (i : Nat) (k : Core) : (s.setCore i k).dies = s.dies := rfl
@[simp] theorem State.setCore_requests (i : Nat) (k : Core) : (s.setCore i k).requests = s.requests := rfl
@[simp] theorem State.setCore_images (i : Nat) (k : Core) : (s.setCore i k).images = s.images := rfl
@[simp] theorem State.setCore_wards (i : Nat) (k : Core) : (s.setCore i k).wards = s.wards := rfl
@[simp] theorem State.setCore_hbm (i : Nat) (k : Core) : (s.setCore i k).hbm = s.hbm := rfl
@[simp] theorem State.setCore_hinge (i : Nat) (k : Core) : (s.setCore i k).hinge = s.hinge := rfl
@[simp] theorem State.setCore_coll (i : Nat) (k : Core) : (s.setCore i k).coll = s.coll := rfl
@[simp] theorem State.setCore_host (i : Nat) (k : Core) : (s.setCore i k).host = s.host := rfl
@[simp] theorem State.setCore_exporter (i : Nat) (k : Core) : (s.setCore i k).exporter = s.exporter := rfl
@[simp] theorem State.setCore_power (i : Nat) (k : Core) : (s.setCore i k).power = s.power := rfl
@[simp] theorem State.setCore_latch (i : Nat) (k : Core) : (s.setCore i k).latch = s.latch := rfl
@[simp] theorem State.setCore_log (i : Nat) (k : Core) : (s.setCore i k).log = s.log := rfl
@[simp] theorem State.setCore_journal (i : Nat) (k : Core) : (s.setCore i k).journal = s.journal := rfl
@[simp] theorem State.setCore_flash (i : Nat) (k : Core) : (s.setCore i k).flash = s.flash := rfl
@[simp] theorem State.setCore_sec (i : Nat) (k : Core) : (s.setCore i k).sec = s.sec := rfl
@[simp] theorem State.setCore_boot (i : Nat) (k : Core) : (s.setCore i k).boot = s.boot := rfl
@[simp] theorem State.setCore_side (i : Nat) (k : Core) : (s.setCore i k).side = s.side := rfl
@[simp] theorem State.setCore_jtag (i : Nat) (k : Core) : (s.setCore i k).jtag = s.jtag := rfl

@[simp] theorem State.setCluster_pending (g : Nat) (x : Cluster) : (s.setCluster g x).pending = s.pending := rfl
@[simp] theorem State.setCluster_freeCount (g : Nat) (x : Cluster) : (s.setCluster g x).freeCount = s.freeCount := rfl
@[simp] theorem State.setCluster_csr (g : Nat) (x : Cluster) : (s.setCluster g x).csr = s.csr := rfl
@[simp] theorem State.setCluster_mem (g : Nat) (x : Cluster) : (s.setCluster g x).mem = s.mem := rfl
@[simp] theorem State.setCluster_marks (g : Nat) (x : Cluster) : (s.setCluster g x).marks = s.marks := rfl
@[simp] theorem State.setCluster_cores (g : Nat) (x : Cluster) : (s.setCluster g x).cores = s.cores := rfl
@[simp] theorem State.setCluster_dies (g : Nat) (x : Cluster) : (s.setCluster g x).dies = s.dies := rfl
@[simp] theorem State.setCluster_requests (g : Nat) (x : Cluster) : (s.setCluster g x).requests = s.requests := rfl
@[simp] theorem State.setCluster_images (g : Nat) (x : Cluster) : (s.setCluster g x).images = s.images := rfl
@[simp] theorem State.setCluster_wards (g : Nat) (x : Cluster) : (s.setCluster g x).wards = s.wards := rfl
@[simp] theorem State.setCluster_hbm (g : Nat) (x : Cluster) : (s.setCluster g x).hbm = s.hbm := rfl
@[simp] theorem State.setCluster_hinge (g : Nat) (x : Cluster) : (s.setCluster g x).hinge = s.hinge := rfl
@[simp] theorem State.setCluster_coll (g : Nat) (x : Cluster) : (s.setCluster g x).coll = s.coll := rfl
@[simp] theorem State.setCluster_host (g : Nat) (x : Cluster) : (s.setCluster g x).host = s.host := rfl
@[simp] theorem State.setCluster_exporter (g : Nat) (x : Cluster) : (s.setCluster g x).exporter = s.exporter := rfl
@[simp] theorem State.setCluster_power (g : Nat) (x : Cluster) : (s.setCluster g x).power = s.power := rfl
@[simp] theorem State.setCluster_latch (g : Nat) (x : Cluster) : (s.setCluster g x).latch = s.latch := rfl
@[simp] theorem State.setCluster_log (g : Nat) (x : Cluster) : (s.setCluster g x).log = s.log := rfl
@[simp] theorem State.setCluster_journal (g : Nat) (x : Cluster) : (s.setCluster g x).journal = s.journal := rfl
@[simp] theorem State.setCluster_flash (g : Nat) (x : Cluster) : (s.setCluster g x).flash = s.flash := rfl
@[simp] theorem State.setCluster_sec (g : Nat) (x : Cluster) : (s.setCluster g x).sec = s.sec := rfl
@[simp] theorem State.setCluster_boot (g : Nat) (x : Cluster) : (s.setCluster g x).boot = s.boot := rfl
@[simp] theorem State.setCluster_side (g : Nat) (x : Cluster) : (s.setCluster g x).side = s.side := rfl
@[simp] theorem State.setCluster_jtag (g : Nat) (x : Cluster) : (s.setCluster g x).jtag = s.jtag := rfl

@[simp] theorem State.setDie_pending (d : Nat) (x : Die) : (s.setDie d x).pending = s.pending := rfl
@[simp] theorem State.setDie_freeCount (d : Nat) (x : Die) : (s.setDie d x).freeCount = s.freeCount := rfl
@[simp] theorem State.setDie_csr (d : Nat) (x : Die) : (s.setDie d x).csr = s.csr := rfl
@[simp] theorem State.setDie_mem (d : Nat) (x : Die) : (s.setDie d x).mem = s.mem := rfl
@[simp] theorem State.setDie_marks (d : Nat) (x : Die) : (s.setDie d x).marks = s.marks := rfl
@[simp] theorem State.setDie_cores (d : Nat) (x : Die) : (s.setDie d x).cores = s.cores := rfl
@[simp] theorem State.setDie_clusters (d : Nat) (x : Die) : (s.setDie d x).clusters = s.clusters := rfl
@[simp] theorem State.setDie_requests (d : Nat) (x : Die) : (s.setDie d x).requests = s.requests := rfl
@[simp] theorem State.setDie_images (d : Nat) (x : Die) : (s.setDie d x).images = s.images := rfl
@[simp] theorem State.setDie_wards (d : Nat) (x : Die) : (s.setDie d x).wards = s.wards := rfl
@[simp] theorem State.setDie_hbm (d : Nat) (x : Die) : (s.setDie d x).hbm = s.hbm := rfl
@[simp] theorem State.setDie_hinge (d : Nat) (x : Die) : (s.setDie d x).hinge = s.hinge := rfl
@[simp] theorem State.setDie_coll (d : Nat) (x : Die) : (s.setDie d x).coll = s.coll := rfl
@[simp] theorem State.setDie_host (d : Nat) (x : Die) : (s.setDie d x).host = s.host := rfl
@[simp] theorem State.setDie_exporter (d : Nat) (x : Die) : (s.setDie d x).exporter = s.exporter := rfl
@[simp] theorem State.setDie_power (d : Nat) (x : Die) : (s.setDie d x).power = s.power := rfl
@[simp] theorem State.setDie_latch (d : Nat) (x : Die) : (s.setDie d x).latch = s.latch := rfl
@[simp] theorem State.setDie_log (d : Nat) (x : Die) : (s.setDie d x).log = s.log := rfl
@[simp] theorem State.setDie_journal (d : Nat) (x : Die) : (s.setDie d x).journal = s.journal := rfl
@[simp] theorem State.setDie_flash (d : Nat) (x : Die) : (s.setDie d x).flash = s.flash := rfl
@[simp] theorem State.setDie_sec (d : Nat) (x : Die) : (s.setDie d x).sec = s.sec := rfl
@[simp] theorem State.setDie_boot (d : Nat) (x : Die) : (s.setDie d x).boot = s.boot := rfl
@[simp] theorem State.setDie_side (d : Nat) (x : Die) : (s.setDie d x).side = s.side := rfl
@[simp] theorem State.setDie_jtag (d : Nat) (x : Die) : (s.setDie d x).jtag = s.jtag := rfl

@[simp] theorem State.modWard_pending (w : Nat) (f : Ward → Ward) : (s.modWard w f).pending = s.pending := rfl
@[simp] theorem State.modWard_freeCount (w : Nat) (f : Ward → Ward) : (s.modWard w f).freeCount = s.freeCount := rfl
@[simp] theorem State.modWard_csr (w : Nat) (f : Ward → Ward) : (s.modWard w f).csr = s.csr := rfl
@[simp] theorem State.modWard_mem (w : Nat) (f : Ward → Ward) : (s.modWard w f).mem = s.mem := rfl
@[simp] theorem State.modWard_marks (w : Nat) (f : Ward → Ward) : (s.modWard w f).marks = s.marks := rfl
@[simp] theorem State.modWard_cores (w : Nat) (f : Ward → Ward) : (s.modWard w f).cores = s.cores := rfl
@[simp] theorem State.modWard_clusters (w : Nat) (f : Ward → Ward) : (s.modWard w f).clusters = s.clusters := rfl
@[simp] theorem State.modWard_dies (w : Nat) (f : Ward → Ward) : (s.modWard w f).dies = s.dies := rfl
@[simp] theorem State.modWard_requests (w : Nat) (f : Ward → Ward) : (s.modWard w f).requests = s.requests := rfl
@[simp] theorem State.modWard_images (w : Nat) (f : Ward → Ward) : (s.modWard w f).images = s.images := rfl
@[simp] theorem State.modWard_hbm (w : Nat) (f : Ward → Ward) : (s.modWard w f).hbm = s.hbm := rfl
@[simp] theorem State.modWard_hinge (w : Nat) (f : Ward → Ward) : (s.modWard w f).hinge = s.hinge := rfl
@[simp] theorem State.modWard_coll (w : Nat) (f : Ward → Ward) : (s.modWard w f).coll = s.coll := rfl
@[simp] theorem State.modWard_host (w : Nat) (f : Ward → Ward) : (s.modWard w f).host = s.host := rfl
@[simp] theorem State.modWard_exporter (w : Nat) (f : Ward → Ward) : (s.modWard w f).exporter = s.exporter := rfl
@[simp] theorem State.modWard_power (w : Nat) (f : Ward → Ward) : (s.modWard w f).power = s.power := rfl
@[simp] theorem State.modWard_latch (w : Nat) (f : Ward → Ward) : (s.modWard w f).latch = s.latch := rfl
@[simp] theorem State.modWard_log (w : Nat) (f : Ward → Ward) : (s.modWard w f).log = s.log := rfl
@[simp] theorem State.modWard_journal (w : Nat) (f : Ward → Ward) : (s.modWard w f).journal = s.journal := rfl
@[simp] theorem State.modWard_flash (w : Nat) (f : Ward → Ward) : (s.modWard w f).flash = s.flash := rfl
@[simp] theorem State.modWard_sec (w : Nat) (f : Ward → Ward) : (s.modWard w f).sec = s.sec := rfl
@[simp] theorem State.modWard_boot (w : Nat) (f : Ward → Ward) : (s.modWard w f).boot = s.boot := rfl
@[simp] theorem State.modWard_side (w : Nat) (f : Ward → Ward) : (s.modWard w f).side = s.side := rfl
@[simp] theorem State.modWard_jtag (w : Nat) (f : Ward → Ward) : (s.modWard w f).jtag = s.jtag := rfl

@[simp] theorem State.modReq_pending (r : Nat) (f : Request → Request) : (s.modReq r f).pending = s.pending := rfl
@[simp] theorem State.modReq_freeCount (r : Nat) (f : Request → Request) : (s.modReq r f).freeCount = s.freeCount := rfl
@[simp] theorem State.modReq_csr (r : Nat) (f : Request → Request) : (s.modReq r f).csr = s.csr := rfl
@[simp] theorem State.modReq_mem (r : Nat) (f : Request → Request) : (s.modReq r f).mem = s.mem := rfl
@[simp] theorem State.modReq_marks (r : Nat) (f : Request → Request) : (s.modReq r f).marks = s.marks := rfl
@[simp] theorem State.modReq_cores (r : Nat) (f : Request → Request) : (s.modReq r f).cores = s.cores := rfl
@[simp] theorem State.modReq_clusters (r : Nat) (f : Request → Request) : (s.modReq r f).clusters = s.clusters := rfl
@[simp] theorem State.modReq_dies (r : Nat) (f : Request → Request) : (s.modReq r f).dies = s.dies := rfl
@[simp] theorem State.modReq_images (r : Nat) (f : Request → Request) : (s.modReq r f).images = s.images := rfl
@[simp] theorem State.modReq_wards (r : Nat) (f : Request → Request) : (s.modReq r f).wards = s.wards := rfl
@[simp] theorem State.modReq_hbm (r : Nat) (f : Request → Request) : (s.modReq r f).hbm = s.hbm := rfl
@[simp] theorem State.modReq_hinge (r : Nat) (f : Request → Request) : (s.modReq r f).hinge = s.hinge := rfl
@[simp] theorem State.modReq_coll (r : Nat) (f : Request → Request) : (s.modReq r f).coll = s.coll := rfl
@[simp] theorem State.modReq_host (r : Nat) (f : Request → Request) : (s.modReq r f).host = s.host := rfl
@[simp] theorem State.modReq_exporter (r : Nat) (f : Request → Request) : (s.modReq r f).exporter = s.exporter := rfl
@[simp] theorem State.modReq_power (r : Nat) (f : Request → Request) : (s.modReq r f).power = s.power := rfl
@[simp] theorem State.modReq_latch (r : Nat) (f : Request → Request) : (s.modReq r f).latch = s.latch := rfl
@[simp] theorem State.modReq_log (r : Nat) (f : Request → Request) : (s.modReq r f).log = s.log := rfl
@[simp] theorem State.modReq_journal (r : Nat) (f : Request → Request) : (s.modReq r f).journal = s.journal := rfl
@[simp] theorem State.modReq_flash (r : Nat) (f : Request → Request) : (s.modReq r f).flash = s.flash := rfl
@[simp] theorem State.modReq_sec (r : Nat) (f : Request → Request) : (s.modReq r f).sec = s.sec := rfl
@[simp] theorem State.modReq_boot (r : Nat) (f : Request → Request) : (s.modReq r f).boot = s.boot := rfl
@[simp] theorem State.modReq_side (r : Nat) (f : Request → Request) : (s.modReq r f).side = s.side := rfl
@[simp] theorem State.modReq_jtag (r : Nat) (f : Request → Request) : (s.modReq r f).jtag = s.jtag := rfl

@[simp] theorem State.modTask_pending (r t : Nat) (f : Task → Task) : (s.modTask r t f).pending = s.pending := rfl
@[simp] theorem State.modTask_freeCount (r t : Nat) (f : Task → Task) : (s.modTask r t f).freeCount = s.freeCount := rfl
@[simp] theorem State.modTask_csr (r t : Nat) (f : Task → Task) : (s.modTask r t f).csr = s.csr := rfl
@[simp] theorem State.modTask_mem (r t : Nat) (f : Task → Task) : (s.modTask r t f).mem = s.mem := rfl
@[simp] theorem State.modTask_marks (r t : Nat) (f : Task → Task) : (s.modTask r t f).marks = s.marks := rfl
@[simp] theorem State.modTask_cores (r t : Nat) (f : Task → Task) : (s.modTask r t f).cores = s.cores := rfl
@[simp] theorem State.modTask_clusters (r t : Nat) (f : Task → Task) : (s.modTask r t f).clusters = s.clusters := rfl
@[simp] theorem State.modTask_dies (r t : Nat) (f : Task → Task) : (s.modTask r t f).dies = s.dies := rfl
@[simp] theorem State.modTask_images (r t : Nat) (f : Task → Task) : (s.modTask r t f).images = s.images := rfl
@[simp] theorem State.modTask_wards (r t : Nat) (f : Task → Task) : (s.modTask r t f).wards = s.wards := rfl
@[simp] theorem State.modTask_hbm (r t : Nat) (f : Task → Task) : (s.modTask r t f).hbm = s.hbm := rfl
@[simp] theorem State.modTask_hinge (r t : Nat) (f : Task → Task) : (s.modTask r t f).hinge = s.hinge := rfl
@[simp] theorem State.modTask_coll (r t : Nat) (f : Task → Task) : (s.modTask r t f).coll = s.coll := rfl
@[simp] theorem State.modTask_host (r t : Nat) (f : Task → Task) : (s.modTask r t f).host = s.host := rfl
@[simp] theorem State.modTask_exporter (r t : Nat) (f : Task → Task) : (s.modTask r t f).exporter = s.exporter := rfl
@[simp] theorem State.modTask_power (r t : Nat) (f : Task → Task) : (s.modTask r t f).power = s.power := rfl
@[simp] theorem State.modTask_latch (r t : Nat) (f : Task → Task) : (s.modTask r t f).latch = s.latch := rfl
@[simp] theorem State.modTask_log (r t : Nat) (f : Task → Task) : (s.modTask r t f).log = s.log := rfl
@[simp] theorem State.modTask_journal (r t : Nat) (f : Task → Task) : (s.modTask r t f).journal = s.journal := rfl
@[simp] theorem State.modTask_flash (r t : Nat) (f : Task → Task) : (s.modTask r t f).flash = s.flash := rfl
@[simp] theorem State.modTask_sec (r t : Nat) (f : Task → Task) : (s.modTask r t f).sec = s.sec := rfl
@[simp] theorem State.modTask_boot (r t : Nat) (f : Task → Task) : (s.modTask r t f).boot = s.boot := rfl
@[simp] theorem State.modTask_side (r t : Nat) (f : Task → Task) : (s.modTask r t f).side = s.side := rfl
@[simp] theorem State.modTask_jtag (r t : Nat) (f : Task → Task) : (s.modTask r t f).jtag = s.jtag := rfl

@[simp] theorem State.poke_pending (a : Nat) (bs : List Byte) : (s.poke a bs).pending = s.pending := rfl
@[simp] theorem State.poke_freeCount (a : Nat) (bs : List Byte) : (s.poke a bs).freeCount = s.freeCount := rfl
@[simp] theorem State.poke_csr (a : Nat) (bs : List Byte) : (s.poke a bs).csr = s.csr := rfl
@[simp] theorem State.poke_marks (a : Nat) (bs : List Byte) : (s.poke a bs).marks = s.marks := rfl
@[simp] theorem State.poke_cores (a : Nat) (bs : List Byte) : (s.poke a bs).cores = s.cores := rfl
@[simp] theorem State.poke_clusters (a : Nat) (bs : List Byte) : (s.poke a bs).clusters = s.clusters := rfl
@[simp] theorem State.poke_dies (a : Nat) (bs : List Byte) : (s.poke a bs).dies = s.dies := rfl
@[simp] theorem State.poke_requests (a : Nat) (bs : List Byte) : (s.poke a bs).requests = s.requests := rfl
@[simp] theorem State.poke_images (a : Nat) (bs : List Byte) : (s.poke a bs).images = s.images := rfl
@[simp] theorem State.poke_wards (a : Nat) (bs : List Byte) : (s.poke a bs).wards = s.wards := rfl
@[simp] theorem State.poke_hbm (a : Nat) (bs : List Byte) : (s.poke a bs).hbm = s.hbm := rfl
@[simp] theorem State.poke_hinge (a : Nat) (bs : List Byte) : (s.poke a bs).hinge = s.hinge := rfl
@[simp] theorem State.poke_coll (a : Nat) (bs : List Byte) : (s.poke a bs).coll = s.coll := rfl
@[simp] theorem State.poke_host (a : Nat) (bs : List Byte) : (s.poke a bs).host = s.host := rfl
@[simp] theorem State.poke_exporter (a : Nat) (bs : List Byte) : (s.poke a bs).exporter = s.exporter := rfl
@[simp] theorem State.poke_power (a : Nat) (bs : List Byte) : (s.poke a bs).power = s.power := rfl
@[simp] theorem State.poke_latch (a : Nat) (bs : List Byte) : (s.poke a bs).latch = s.latch := rfl
@[simp] theorem State.poke_log (a : Nat) (bs : List Byte) : (s.poke a bs).log = s.log := rfl
@[simp] theorem State.poke_journal (a : Nat) (bs : List Byte) : (s.poke a bs).journal = s.journal := rfl
@[simp] theorem State.poke_flash (a : Nat) (bs : List Byte) : (s.poke a bs).flash = s.flash := rfl
@[simp] theorem State.poke_sec (a : Nat) (bs : List Byte) : (s.poke a bs).sec = s.sec := rfl
@[simp] theorem State.poke_boot (a : Nat) (bs : List Byte) : (s.poke a bs).boot = s.boot := rfl
@[simp] theorem State.poke_side (a : Nat) (bs : List Byte) : (s.poke a bs).side = s.side := rfl
@[simp] theorem State.poke_jtag (a : Nat) (bs : List Byte) : (s.poke a bs).jtag = s.jtag := rfl

@[simp] theorem State.pokeN_pending (a n v : Nat) : (s.pokeN a n v).pending = s.pending := rfl
@[simp] theorem State.pokeN_freeCount (a n v : Nat) : (s.pokeN a n v).freeCount = s.freeCount := rfl
@[simp] theorem State.pokeN_csr (a n v : Nat) : (s.pokeN a n v).csr = s.csr := rfl
@[simp] theorem State.pokeN_marks (a n v : Nat) : (s.pokeN a n v).marks = s.marks := rfl
@[simp] theorem State.pokeN_cores (a n v : Nat) : (s.pokeN a n v).cores = s.cores := rfl
@[simp] theorem State.pokeN_clusters (a n v : Nat) : (s.pokeN a n v).clusters = s.clusters := rfl
@[simp] theorem State.pokeN_dies (a n v : Nat) : (s.pokeN a n v).dies = s.dies := rfl
@[simp] theorem State.pokeN_requests (a n v : Nat) : (s.pokeN a n v).requests = s.requests := rfl
@[simp] theorem State.pokeN_images (a n v : Nat) : (s.pokeN a n v).images = s.images := rfl
@[simp] theorem State.pokeN_wards (a n v : Nat) : (s.pokeN a n v).wards = s.wards := rfl
@[simp] theorem State.pokeN_hbm (a n v : Nat) : (s.pokeN a n v).hbm = s.hbm := rfl
@[simp] theorem State.pokeN_hinge (a n v : Nat) : (s.pokeN a n v).hinge = s.hinge := rfl
@[simp] theorem State.pokeN_coll (a n v : Nat) : (s.pokeN a n v).coll = s.coll := rfl
@[simp] theorem State.pokeN_host (a n v : Nat) : (s.pokeN a n v).host = s.host := rfl
@[simp] theorem State.pokeN_exporter (a n v : Nat) : (s.pokeN a n v).exporter = s.exporter := rfl
@[simp] theorem State.pokeN_power (a n v : Nat) : (s.pokeN a n v).power = s.power := rfl
@[simp] theorem State.pokeN_latch (a n v : Nat) : (s.pokeN a n v).latch = s.latch := rfl
@[simp] theorem State.pokeN_log (a n v : Nat) : (s.pokeN a n v).log = s.log := rfl
@[simp] theorem State.pokeN_journal (a n v : Nat) : (s.pokeN a n v).journal = s.journal := rfl
@[simp] theorem State.pokeN_flash (a n v : Nat) : (s.pokeN a n v).flash = s.flash := rfl
@[simp] theorem State.pokeN_sec (a n v : Nat) : (s.pokeN a n v).sec = s.sec := rfl
@[simp] theorem State.pokeN_boot (a n v : Nat) : (s.pokeN a n v).boot = s.boot := rfl
@[simp] theorem State.pokeN_side (a n v : Nat) : (s.pokeN a n v).side = s.side := rfl
@[simp] theorem State.pokeN_jtag (a n v : Nat) : (s.pokeN a n v).jtag = s.jtag := rfl

@[simp] theorem State.zero_pending (a n : Nat) : (s.zero a n).pending = s.pending := rfl
@[simp] theorem State.zero_freeCount (a n : Nat) : (s.zero a n).freeCount = s.freeCount := rfl
@[simp] theorem State.zero_csr (a n : Nat) : (s.zero a n).csr = s.csr := rfl
@[simp] theorem State.zero_cores (a n : Nat) : (s.zero a n).cores = s.cores := rfl
@[simp] theorem State.zero_clusters (a n : Nat) : (s.zero a n).clusters = s.clusters := rfl
@[simp] theorem State.zero_dies (a n : Nat) : (s.zero a n).dies = s.dies := rfl
@[simp] theorem State.zero_requests (a n : Nat) : (s.zero a n).requests = s.requests := rfl
@[simp] theorem State.zero_images (a n : Nat) : (s.zero a n).images = s.images := rfl
@[simp] theorem State.zero_wards (a n : Nat) : (s.zero a n).wards = s.wards := rfl
@[simp] theorem State.zero_hbm (a n : Nat) : (s.zero a n).hbm = s.hbm := rfl
@[simp] theorem State.zero_hinge (a n : Nat) : (s.zero a n).hinge = s.hinge := rfl
@[simp] theorem State.zero_coll (a n : Nat) : (s.zero a n).coll = s.coll := rfl
@[simp] theorem State.zero_host (a n : Nat) : (s.zero a n).host = s.host := rfl
@[simp] theorem State.zero_exporter (a n : Nat) : (s.zero a n).exporter = s.exporter := rfl
@[simp] theorem State.zero_power (a n : Nat) : (s.zero a n).power = s.power := rfl
@[simp] theorem State.zero_latch (a n : Nat) : (s.zero a n).latch = s.latch := rfl
@[simp] theorem State.zero_log (a n : Nat) : (s.zero a n).log = s.log := rfl
@[simp] theorem State.zero_journal (a n : Nat) : (s.zero a n).journal = s.journal := rfl
@[simp] theorem State.zero_flash (a n : Nat) : (s.zero a n).flash = s.flash := rfl
@[simp] theorem State.zero_sec (a n : Nat) : (s.zero a n).sec = s.sec := rfl
@[simp] theorem State.zero_boot (a n : Nat) : (s.zero a n).boot = s.boot := rfl
@[simp] theorem State.zero_side (a n : Nat) : (s.zero a n).side = s.side := rfl
@[simp] theorem State.zero_jtag (a n : Nat) : (s.zero a n).jtag = s.jtag := rfl

@[simp] theorem State.setMark_pending (a : Nat) (m : WordMark) : (s.setMark a m).pending = s.pending := rfl
@[simp] theorem State.setMark_freeCount (a : Nat) (m : WordMark) : (s.setMark a m).freeCount = s.freeCount := rfl
@[simp] theorem State.setMark_csr (a : Nat) (m : WordMark) : (s.setMark a m).csr = s.csr := rfl
@[simp] theorem State.setMark_mem (a : Nat) (m : WordMark) : (s.setMark a m).mem = s.mem := rfl
@[simp] theorem State.setMark_cores (a : Nat) (m : WordMark) : (s.setMark a m).cores = s.cores := rfl
@[simp] theorem State.setMark_clusters (a : Nat) (m : WordMark) : (s.setMark a m).clusters = s.clusters := rfl
@[simp] theorem State.setMark_dies (a : Nat) (m : WordMark) : (s.setMark a m).dies = s.dies := rfl
@[simp] theorem State.setMark_requests (a : Nat) (m : WordMark) : (s.setMark a m).requests = s.requests := rfl
@[simp] theorem State.setMark_images (a : Nat) (m : WordMark) : (s.setMark a m).images = s.images := rfl
@[simp] theorem State.setMark_wards (a : Nat) (m : WordMark) : (s.setMark a m).wards = s.wards := rfl
@[simp] theorem State.setMark_hbm (a : Nat) (m : WordMark) : (s.setMark a m).hbm = s.hbm := rfl
@[simp] theorem State.setMark_hinge (a : Nat) (m : WordMark) : (s.setMark a m).hinge = s.hinge := rfl
@[simp] theorem State.setMark_coll (a : Nat) (m : WordMark) : (s.setMark a m).coll = s.coll := rfl
@[simp] theorem State.setMark_host (a : Nat) (m : WordMark) : (s.setMark a m).host = s.host := rfl
@[simp] theorem State.setMark_exporter (a : Nat) (m : WordMark) : (s.setMark a m).exporter = s.exporter := rfl
@[simp] theorem State.setMark_power (a : Nat) (m : WordMark) : (s.setMark a m).power = s.power := rfl
@[simp] theorem State.setMark_latch (a : Nat) (m : WordMark) : (s.setMark a m).latch = s.latch := rfl
@[simp] theorem State.setMark_log (a : Nat) (m : WordMark) : (s.setMark a m).log = s.log := rfl
@[simp] theorem State.setMark_journal (a : Nat) (m : WordMark) : (s.setMark a m).journal = s.journal := rfl
@[simp] theorem State.setMark_flash (a : Nat) (m : WordMark) : (s.setMark a m).flash = s.flash := rfl
@[simp] theorem State.setMark_sec (a : Nat) (m : WordMark) : (s.setMark a m).sec = s.sec := rfl
@[simp] theorem State.setMark_boot (a : Nat) (m : WordMark) : (s.setMark a m).boot = s.boot := rfl
@[simp] theorem State.setMark_side (a : Nat) (m : WordMark) : (s.setMark a m).side = s.side := rfl
@[simp] theorem State.setMark_jtag (a : Nat) (m : WordMark) : (s.setMark a m).jtag = s.jtag := rfl

@[simp] theorem State.setImg_pending (off n v : Nat) : (s.setImg off n v).pending = s.pending := rfl
@[simp] theorem State.setImg_freeCount (off n v : Nat) : (s.setImg off n v).freeCount = s.freeCount := rfl
@[simp] theorem State.setImg_csr (off n v : Nat) : (s.setImg off n v).csr = s.csr := rfl
@[simp] theorem State.setImg_mem (off n v : Nat) : (s.setImg off n v).mem = s.mem := rfl
@[simp] theorem State.setImg_marks (off n v : Nat) : (s.setImg off n v).marks = s.marks := rfl
@[simp] theorem State.setImg_cores (off n v : Nat) : (s.setImg off n v).cores = s.cores := rfl
@[simp] theorem State.setImg_clusters (off n v : Nat) : (s.setImg off n v).clusters = s.clusters := rfl
@[simp] theorem State.setImg_dies (off n v : Nat) : (s.setImg off n v).dies = s.dies := rfl
@[simp] theorem State.setImg_requests (off n v : Nat) : (s.setImg off n v).requests = s.requests := rfl
@[simp] theorem State.setImg_images (off n v : Nat) : (s.setImg off n v).images = s.images := rfl
@[simp] theorem State.setImg_wards (off n v : Nat) : (s.setImg off n v).wards = s.wards := rfl
@[simp] theorem State.setImg_hbm (off n v : Nat) : (s.setImg off n v).hbm = s.hbm := rfl
@[simp] theorem State.setImg_hinge (off n v : Nat) : (s.setImg off n v).hinge = s.hinge := rfl
@[simp] theorem State.setImg_coll (off n v : Nat) : (s.setImg off n v).coll = s.coll := rfl
@[simp] theorem State.setImg_host (off n v : Nat) : (s.setImg off n v).host = s.host := rfl
@[simp] theorem State.setImg_exporter (off n v : Nat) : (s.setImg off n v).exporter = s.exporter := rfl
@[simp] theorem State.setImg_power (off n v : Nat) : (s.setImg off n v).power = s.power := rfl
@[simp] theorem State.setImg_latch (off n v : Nat) : (s.setImg off n v).latch = s.latch := rfl
@[simp] theorem State.setImg_log (off n v : Nat) : (s.setImg off n v).log = s.log := rfl
@[simp] theorem State.setImg_flash (off n v : Nat) : (s.setImg off n v).flash = s.flash := rfl
@[simp] theorem State.setImg_sec (off n v : Nat) : (s.setImg off n v).sec = s.sec := rfl
@[simp] theorem State.setImg_boot (off n v : Nat) : (s.setImg off n v).boot = s.boot := rfl
@[simp] theorem State.setImg_side (off n v : Nat) : (s.setImg off n v).side = s.side := rfl
@[simp] theorem State.setImg_jtag (off n v : Nat) : (s.setImg off n v).jtag = s.jtag := rfl

@[simp] theorem State.advance_pending (c n : Nat) : (s.advance c n).pending = s.pending := rfl
@[simp] theorem State.advance_freeCount (c n : Nat) : (s.advance c n).freeCount = s.freeCount := rfl
@[simp] theorem State.advance_csr (c n : Nat) : (s.advance c n).csr = s.csr := rfl
@[simp] theorem State.advance_mem (c n : Nat) : (s.advance c n).mem = s.mem := rfl
@[simp] theorem State.advance_marks (c n : Nat) : (s.advance c n).marks = s.marks := rfl
@[simp] theorem State.advance_clusters (c n : Nat) : (s.advance c n).clusters = s.clusters := rfl
@[simp] theorem State.advance_dies (c n : Nat) : (s.advance c n).dies = s.dies := rfl
@[simp] theorem State.advance_requests (c n : Nat) : (s.advance c n).requests = s.requests := rfl
@[simp] theorem State.advance_images (c n : Nat) : (s.advance c n).images = s.images := rfl
@[simp] theorem State.advance_wards (c n : Nat) : (s.advance c n).wards = s.wards := rfl
@[simp] theorem State.advance_hbm (c n : Nat) : (s.advance c n).hbm = s.hbm := rfl
@[simp] theorem State.advance_hinge (c n : Nat) : (s.advance c n).hinge = s.hinge := rfl
@[simp] theorem State.advance_coll (c n : Nat) : (s.advance c n).coll = s.coll := rfl
@[simp] theorem State.advance_host (c n : Nat) : (s.advance c n).host = s.host := rfl
@[simp] theorem State.advance_exporter (c n : Nat) : (s.advance c n).exporter = s.exporter := rfl
@[simp] theorem State.advance_power (c n : Nat) : (s.advance c n).power = s.power := rfl
@[simp] theorem State.advance_latch (c n : Nat) : (s.advance c n).latch = s.latch := rfl
@[simp] theorem State.advance_log (c n : Nat) : (s.advance c n).log = s.log := rfl
@[simp] theorem State.advance_journal (c n : Nat) : (s.advance c n).journal = s.journal := rfl
@[simp] theorem State.advance_flash (c n : Nat) : (s.advance c n).flash = s.flash := rfl
@[simp] theorem State.advance_sec (c n : Nat) : (s.advance c n).sec = s.sec := rfl
@[simp] theorem State.advance_boot (c n : Nat) : (s.advance c n).boot = s.boot := rfl
@[simp] theorem State.advance_side (c n : Nat) : (s.advance c n).side = s.side := rfl
@[simp] theorem State.advance_jtag (c n : Nat) : (s.advance c n).jtag = s.jtag := rfl

@[simp] theorem State.putS_pending (c rd : Nat) (v : Word) : (s.putS c rd v).pending = s.pending := rfl
@[simp] theorem State.putS_freeCount (c rd : Nat) (v : Word) : (s.putS c rd v).freeCount = s.freeCount := rfl
@[simp] theorem State.putS_csr (c rd : Nat) (v : Word) : (s.putS c rd v).csr = s.csr := rfl
@[simp] theorem State.putS_mem (c rd : Nat) (v : Word) : (s.putS c rd v).mem = s.mem := rfl
@[simp] theorem State.putS_marks (c rd : Nat) (v : Word) : (s.putS c rd v).marks = s.marks := rfl
@[simp] theorem State.putS_clusters (c rd : Nat) (v : Word) : (s.putS c rd v).clusters = s.clusters := rfl
@[simp] theorem State.putS_dies (c rd : Nat) (v : Word) : (s.putS c rd v).dies = s.dies := rfl
@[simp] theorem State.putS_requests (c rd : Nat) (v : Word) : (s.putS c rd v).requests = s.requests := rfl
@[simp] theorem State.putS_images (c rd : Nat) (v : Word) : (s.putS c rd v).images = s.images := rfl
@[simp] theorem State.putS_wards (c rd : Nat) (v : Word) : (s.putS c rd v).wards = s.wards := rfl
@[simp] theorem State.putS_hbm (c rd : Nat) (v : Word) : (s.putS c rd v).hbm = s.hbm := rfl
@[simp] theorem State.putS_hinge (c rd : Nat) (v : Word) : (s.putS c rd v).hinge = s.hinge := rfl
@[simp] theorem State.putS_coll (c rd : Nat) (v : Word) : (s.putS c rd v).coll = s.coll := rfl
@[simp] theorem State.putS_host (c rd : Nat) (v : Word) : (s.putS c rd v).host = s.host := rfl
@[simp] theorem State.putS_exporter (c rd : Nat) (v : Word) : (s.putS c rd v).exporter = s.exporter := rfl
@[simp] theorem State.putS_power (c rd : Nat) (v : Word) : (s.putS c rd v).power = s.power := rfl
@[simp] theorem State.putS_latch (c rd : Nat) (v : Word) : (s.putS c rd v).latch = s.latch := rfl
@[simp] theorem State.putS_log (c rd : Nat) (v : Word) : (s.putS c rd v).log = s.log := rfl
@[simp] theorem State.putS_journal (c rd : Nat) (v : Word) : (s.putS c rd v).journal = s.journal := rfl
@[simp] theorem State.putS_flash (c rd : Nat) (v : Word) : (s.putS c rd v).flash = s.flash := rfl
@[simp] theorem State.putS_sec (c rd : Nat) (v : Word) : (s.putS c rd v).sec = s.sec := rfl
@[simp] theorem State.putS_boot (c rd : Nat) (v : Word) : (s.putS c rd v).boot = s.boot := rfl
@[simp] theorem State.putS_side (c rd : Nat) (v : Word) : (s.putS c rd v).side = s.side := rfl
@[simp] theorem State.putS_jtag (c rd : Nat) (v : Word) : (s.putS c rd v).jtag = s.jtag := rfl

/-! ### Reads after updates -/

@[simp] theorem State.rd_setCore (i : Nat) (k : Core) (f : Fld) (j : Nat) : (s.setCore i k).rd f j = s.rd f j := rfl
@[simp] theorem State.rd_setCluster (g : Nat) (x : Cluster) (f : Fld) (j : Nat) :
    (s.setCluster g x).rd f j = s.rd f j := rfl
@[simp] theorem State.rd_poke (a : Nat) (bs : List Byte) (f : Fld) (j : Nat) : (s.poke a bs).rd f j = s.rd f j := rfl
@[simp] theorem State.rd_modReq (r : Nat) (g : Request → Request) (f : Fld) (j : Nat) :
    (s.modReq r g).rd f j = s.rd f j := rfl
@[simp] theorem State.core_wr (f : Fld) (i v c : Nat) : (s.wr f i v).core c = s.core c := rfl
@[simp] theorem State.core_poke (a : Nat) (bs : List Byte) (c : Nat) : (s.poke a bs).core c = s.core c := rfl
@[simp] theorem State.cluster_wr (f : Fld) (i v g : Nat) : (s.wr f i v).cluster g = s.cluster g := rfl
@[simp] theorem State.cluster_setCore (i : Nat) (k : Core) (g : Nat) : (s.setCore i k).cluster g = s.cluster g := rfl
@[simp] theorem State.byte_setCore (i : Nat) (k : Core) (a : Nat) : (s.setCore i k).byte a = s.byte a := rfl
@[simp] theorem State.byte_wr (f : Fld) (i v a : Nat) : (s.wr f i v).byte a = s.byte a := rfl

/-- A core just written reads back. -/
theorem State.core_setCore_self {s : State} {i : Nat} (k : Core) (h : i < s.cores.length) :
    (s.setCore i k).core i = k := by
  simp [State.core, State.setCore, List.getD_eq_getElem?_getD, h]

/-- The other cores are as before. -/
theorem State.core_setCore_other {s : State} {i j : Nat} (k : Core) (h : j ≠ i) :
    (s.setCore i k).core j = s.core j := by
  simp [State.core, State.setCore, List.getD_eq_getElem?_getD, List.getElem?_set_ne h.symm]

/-- The number of cores stays. -/
@[simp] theorem State.setCore_length (i : Nat) (k : Core) : (s.setCore i k).cores.length = s.cores.length := by
  simp [State.setCore]

/-- A cluster just written reads back. -/
theorem State.cluster_setCluster_self {s : State} {g : Nat} (x : Cluster) (h : g < s.clusters.length) :
    (s.setCluster g x).cluster g = x := by
  simp [State.cluster, State.setCluster, List.getD_eq_getElem?_getD, h]

/-- The other clusters are as before. -/
theorem State.cluster_setCluster_other {s : State} {g j : Nat} (x : Cluster) (h : j ≠ g) :
    (s.setCluster g x).cluster j = s.cluster j := by
  simp [State.cluster, State.setCluster, List.getD_eq_getElem?_getD, List.getElem?_set_ne h.symm]

/-- A register field just written reads back, cut to its width. -/
theorem State.rd_wr_self {s : State} (h : Smap.wf 0 s.csr = true) (f : Fld) (i v : Nat) :
    (s.wr f i v).rd f i = v % 2 ^ f.width := by
  simp only [State.rd, State.wr]
  rw [Smap.get_put_self 0 _ _ h, Nat.xor_assoc, Nat.xor_self, Nat.xor_zero]

/-- A field of another key reads as before. -/
theorem State.rd_wr_other {s : State} (h : Smap.wf 0 s.csr = true) {f g : Fld} {i j : Nat} (v : Nat)
    (hk : g.key j ≠ f.key i) : (s.wr f i v).rd g j = s.rd g j := by
  simp only [State.rd, State.wr]
  rw [Smap.get_put_other 0 _ hk h]

/-- A register write keeps the register map's canonical form. -/
theorem State.wr_csr_wf {s : State} (h : Smap.wf 0 s.csr = true) (f : Fld) (i v : Nat) :
    Smap.wf 0 (s.wr f i v).csr = true :=
  Smap.put_wf _ _ h

/-! ### Cores' registers -/

@[simp] theorem State.locate_setCore (i : Nat) (k : Core) (w a : Nat) (b : Bool) :
    (s.setCore i k).locate w a b = s.locate w a b := rfl
@[simp] theorem State.peek_setCore (i : Nat) (k : Core) (a n : Nat) : (s.setCore i k).peek a n = s.peek a n := rfl

/-- s0 reads as zero, whatever is written to it (Table 2.6). -/
@[simp] theorem Core.sreg_zero (k : Core) : k.sreg 0 = 0 := rfl

/-- A write to s0 is discarded (Table 2.6). -/
@[simp] theorem Core.setS_zero (k : Core) (v : Word) : k.setS 0 v = k := rfl

end Sys2Proof.Machine
end

