-- ==== Sys2Proof/Laws/Issue.lean ====
section
/-! SUPPORT. What the issue of an instruction does (R44, R47, R309). -/
namespace Sys2Proof.Machine

/-- An instruction that may issue and is legal runs, past its words; its fault, where it has one, ends the task. -/
theorem State.issue_eq {s : State} {c n : Nat} {t : TileCtx} (h : s.Issues c n t) (run : Run) :
    s.issue c n true run = .next (if (run (s.advance c n) t).2 ≠ 0
      then (run (s.advance c n) t).1.tileFault c t (run (s.advance c n) t).2 else (run (s.advance c n) t).1) := by
  unfold State.issue
  rw [h.tile]
  by_cases hr : (run (s.advance c n) t).2 = 0 <;> simp [h.free, h.fetch, hr]

/-- A fault of an instruction whose tile still runs ends the tile and the task. -/
theorem State.tileFault_running {s : State} {c : Nat} (t : TileCtx) (code : Nat) (h : (s.core c).tile.isSome = true) :
    s.tileFault c t code = s.taskFault c code := by
  simp [State.tileFault, h]

/-- An instruction that may issue but breaks a decode check faults with ILLEGAL_INSTRUCTION (R44). -/
theorem State.issue_illegal {s : State} {c n : Nat} {t : TileCtx} (h : s.Issues c n t) (run : Run) :
    s.issue c n false run = .next (s.taskFault c cIllegal) := by
  unfold State.issue
  rw [h.tile]
  simp only [h.free, h.fetch, Bool.false_eq_true, if_false, ne_eq, not_true_eq_false, if_true]

/-- A core that runs no tile issues nothing (log entry 1). -/
theorem State.issue_idle {s : State} {c n : Nat} {legal : Bool} {run : Run} (h : s.issuing c = none) :
    s.issue c n legal run = .next s := by
  unfold State.issue
  rw [h]

/-- Every issue answers a next state. -/
theorem State.issue_next (s : State) (c n : Nat) (legal : Bool) (run : Run) :
    ∃ t, s.issue c n legal run = .next t := by
  unfold State.issue
  split
  · exact ⟨_, rfl⟩
  · split
    · exact ⟨_, rfl⟩
    · dsimp only
      split
      · exact ⟨_, rfl⟩
      · split
        · exact ⟨_, rfl⟩
        · split <;> exact ⟨_, rfl⟩

/-- An instruction that nothing holds issues as any other. -/
@[simp] theorem State.issueUnless_free (s : State) (c n : Nat) (legal : Bool) (run : Run) :
    s.issueUnless c n false legal run = s.issue c n legal run := by
  simp [State.issueUnless]

/-- A legal instruction that is held stays where it is (R47, R48). -/
@[simp] theorem State.issueUnless_held (s : State) (c n : Nat) (run : Run) :
    s.issueUnless c n true true run = .next s := by
  simp [State.issueUnless]

/-- The state past an instruction of n words is the state with the core past them. -/
theorem State.advance_eq (s : State) (c n : Nat) : s.advance c n = s.setCore c ((s.core c).past n) := rfl

/-- The core of an advanced state. -/
theorem State.core_advance {s : State} {c : Nat} (n : Nat) (h : c < s.cores.length) :
    (s.advance c n).core c = (s.core c).past n :=
  State.core_setCore_self _ h

/-- Writing a core twice leaves the second value. -/
@[simp] theorem State.setCore_setCore (s : State) (c : Nat) (k k' : Core) :
    (s.setCore c k).setCore c k' = s.setCore c k' := by
  simp [State.setCore]

/-- A tensor or memory access depends on no core but through its memory. -/
@[simp] theorem Core.sreg_past (k : Core) (n m : Nat) : (k.past n).sreg m = k.sreg m := rfl
@[simp] theorem Core.treg_past (k : Core) (n m : Nat) : (k.past n).treg m = k.treg m := rfl

end Sys2Proof.Machine
end

