-- ==== Sys2Proof/Laws/Memory.lean ====
section
/-! SUPPORT. The canonical form of register map, memory and marks: every named operation over them keeps it. -/
namespace Sys2Proof.Machine

/-! ### Registers, bytes and marks -/

/-- An operation that keeps the form, folded over a list, keeps it. -/
theorem State.Wf.foldl {β : Type} {f : State → β → State} (hf : ∀ s x, s.Wf → (f s x).Wf) :
    ∀ (l : List β) {s : State}, s.Wf → (l.foldl f s).Wf
  | [], _, h => h
  | x :: l, s, h => State.Wf.foldl hf l (hf s x h)

/-- A conditional update keeps the form where both branches do. -/
theorem State.Wf.ite {p : Prop} [Decidable p] {s t : State} (hs : s.Wf) (ht : t.Wf) : (if p then s else t).Wf := by
  split <;> assumption

theorem State.Wf.wr {s : State} (h : s.Wf) (f : Fld) (i v : Nat) : (s.wr f i v).Wf :=
  ⟨Smap.put_wf _ _ h.csr, h.mem, h.marks⟩

theorem State.Wf.bump {s : State} (h : s.Wf) (f : Fld) (i n : Nat) : (s.bump f i n).Wf := h.wr _ _ _

theorem State.Wf.setMark {s : State} (h : s.Wf) (a : Nat) (m : WordMark) : (s.setMark a m).Wf :=
  ⟨h.csr, h.mem, Smap.put_wf _ _ h.marks⟩

/-- Bytes stored one after the other keep the form. -/
theorem pokeMem_wf : ∀ (bs : List Byte) {m : List (Nat × Byte)} (a : Nat), Memory.wf m → Memory.wf (pokeMem m a bs)
  | [], _, _, h => h
  | b :: bs, _, a, h => pokeMem_wf bs (a + 1) (Smap.put_wf a b h)

theorem State.Wf.poke {s : State} (h : s.Wf) (a : Nat) (bs : List Byte) : (s.poke a bs).Wf :=
  ⟨h.csr, pokeMem_wf bs a h.mem, h.marks⟩

theorem State.Wf.pokeN {s : State} (h : s.Wf) (a n v : Nat) : (s.pokeN a n v).Wf := h.poke _ _

theorem State.Wf.zero {s : State} (h : s.Wf) (a n : Nat) : (s.zero a n).Wf :=
  ⟨h.csr, Smap.clear_wf _ _ h.mem, Smap.clear_wf _ _ h.marks⟩

theorem State.Wf.free {s : State} (h : s.Wf) : s.free.1.Wf := ⟨h.csr, h.mem, h.marks⟩

theorem State.Wf.freeBytes : ∀ (n : Nat) {s : State}, s.Wf → (State.freeBytes n s).1.Wf
  | 0, _, h => h
  | n + 1, s, h => by
    have h1 : (State.freeBytes n s.free.1).1.Wf := State.Wf.freeBytes n h.free
    simpa [State.freeBytes] using h1

theorem State.Wf.setCore {s : State} (h : s.Wf) (i : Nat) (c : Core) : (s.setCore i c).Wf := ⟨h.csr, h.mem, h.marks⟩

theorem State.Wf.setCluster {s : State} (h : s.Wf) (g : Nat) (c : Cluster) : (s.setCluster g c).Wf := ⟨h.csr, h.mem, h.marks⟩

theorem State.Wf.modTask {s : State} (h : s.Wf) (r t : Nat) (f : Task → Task) : (s.modTask r t f).Wf := ⟨h.csr, h.mem, h.marks⟩

theorem State.Wf.modPc {s : State} (h : s.Wf) (pc : Nat) (f : PseudoCh → PseudoCh) : (s.modPc pc f).Wf := ⟨h.csr, h.mem, h.marks⟩

/-! ### The trouble log and the record -/

theorem State.Wf.setImg {s : State} (h : s.Wf) (off n v : Nat) : (s.setImg off n v).Wf := ⟨h.csr, h.mem, h.marks⟩

theorem State.Wf.bumpImg {s : State} (h : s.Wf) (off n : Nat) : (s.bumpImg off n).Wf := h.setImg _ _ _

theorem State.Wf.journalPut {s : State} (h : s.Wf) (r : JournalRec) : (s.journalPut r).Wf := by
  unfold State.journalPut
  exact State.Wf.ite h ⟨h.csr, h.mem, h.marks⟩

theorem State.Wf.auvOffer {s : State} (h : s.Wf) (e : LogEntry) (bs : List Byte) : (s.auvOffer e bs).Wf := by
  unfold State.auvOffer
  refine State.Wf.ite h ?_
  extract_lets s1 co s2 slot data src s3 payload
  clear_value slot data src
  have h1 : s1.Wf := (h.wr _ _ _).bumpImg _ _
  clear_value s1
  have h2 : s2.Wf := State.Wf.ite h1 (h1.bumpImg _ _)
  clear_value s2
  have h3 : s3.Wf := by
    unfold s3
    split
    · exact h2.bumpImg _ _
    · exact ⟨h2.csr, h2.mem, h2.marks⟩
  exact h3.journalPut _

theorem State.Wf.event {s : State} (h : s.Wf) (source unit sev ward event detail : Nat) (rep : Bool) :
    (s.event source unit sev ward event detail rep).Wf := by
  unfold State.event
  extract_lets e
  split
  · exact ⟨h.csr, h.mem, h.marks⟩
  · exact State.Wf.ite ((h.bump _ _ _).free.auvOffer _ _) (h.bump _ _ _).free

/-! ### Readers and writers of HBM -/

theorem State.Wf.passEnd {s : State} (h : s.Wf) (stack : Nat) : (s.passEnd stack).Wf := by
  unfold State.passEnd
  extract_lets pcs s1
  exact State.Wf.ite (State.Wf.foldl (fun _ _ hs => hs.modPc _ _) _ (h.wr _ _ _)) h

theorem State.Wf.retirePc {s : State} (h : s.Wf) (pc cause off : Nat) : (s.retirePc pc cause off).Wf := by
  unfold State.retirePc
  extract_lets used dev st s1 s2 s3 src s4 s5
  have h3 : s3.Wf := ((h.wr _ _ _).wr _ _ _).wr _ _ _
  clear_value s3
  have h4 : s4.Wf := State.Wf.ite ⟨h3.csr, h3.mem, h3.marks⟩ h3
  clear_value s4
  refine State.Wf.foldl (fun t w ht => ?_) _ ((h4.event _ _ _ _ _ _ _).passEnd _)
  exact State.Wf.ite ht (ht.event _ _ _ _ _ _ _)

theorem State.Wf.hbmCorrected {s : State} (h : s.Wf) (off : Nat) : (s.hbmCorrected off).Wf := by
  unfold State.hbmCorrected
  extract_lets pc st t s1 src s2 s3 row p log
  have h1 : s1.Wf := h.bump _ _ _
  have h3 : s3.Wf := ⟨h1.csr, h1.mem, h1.marks⟩
  clear_value s3
  have hl : ∀ u : State, u.Wf → (log u).Wf := fun u hu =>
    State.Wf.ite (hu.modPc _ _) ((hu.modPc _ _).event _ _ _ _ _ _ _)
  split
  · exact State.Wf.ite (h3.retirePc _ _ _) (hl _ (h3.modPc _ _))
  · exact State.Wf.ite (h3.retirePc _ _ _) (hl _ (h3.modPc _ _))

theorem State.Wf.hbmResult {s : State} (h : s.Wf) (off : Nat) (addr : Bool) : (s.hbmResult off addr).Wf := by
  unfold State.hbmResult
  extract_lets pc s1 s2
  have h1 : s1.Wf := State.Wf.ite (h.bump _ _ _) (h.bump _ _ _)
  have h2 : s2.Wf := h1.modPc _ _
  exact State.Wf.ite (h2.retirePc _ _ _) (h2.event _ _ _ _ _ _ _)

theorem State.Wf.openUnit {s : State} (h : s.Wf) (u off : Nat) (bs : List Byte) : (s.openUnit u off bs).Wf := by
  unfold State.openUnit
  split <;> exact h.poke _ _

theorem State.Wf.settleWord {s : State} (h : s.Wf) (a r : Nat) (p : Bool) : (s.settleWord a r p).Wf := by
  unfold State.settleWord
  extract_lets t
  have ht : t.Wf := by
    unfold t
    refine State.Wf.ite h ?_
    split
    · exact h.openUnit _ _ _
    · exact h.pokeN _ _ _
  exact ht.setMark _ _

theorem State.Wf.touchHbm {s : State} (h : s.Wf) (a off : Nat) : (s.touchHbm a off).Wf := by
  unfold State.touchHbm
  extract_lets k m
  refine State.Wf.ite h ?_
  split
  · exact h.settleWord _ _ _
  · exact (h.settleWord _ _ _).hbmCorrected _
  · exact h.hbmResult _ _
  · exact (h.settleWord _ _ _).hbmResult _ _

theorem State.Wf.writeUnit {s : State} (h : s.Wf) (a : Nat) (bs : List Byte) : (s.writeUnit a bs).Wf := by
  unfold State.writeUnit
  split
  · rename_i off _
    extract_lets u ws
    refine State.Wf.ite (h.bump _ _ _) (State.Wf.ite (State.Wf.poke (State.Wf.ite h ?_) _ _) ?_)
    · exact State.Wf.foldl (fun _ _ hs => hs.setMark _ _) _ h
    · have h1 : (ws.foldl (fun s w => s.touchHbm w (off / 64 * 64 + w % 64)) s).Wf :=
        State.Wf.foldl (fun _ _ hs => hs.touchHbm _ _) _ h
      refine State.Wf.ite (h1.bump _ _ _) (State.Wf.ite ?_ (State.Wf.poke ?_ _ _))
      · exact State.Wf.foldl (fun _ _ hs => hs.setMark _ _) _ (h1.poke _ _)
      · exact State.Wf.foldl (fun _ _ hs => hs.setMark _ _) _ h1
  · exact h

/-! ### Page-table words and pools -/

theorem State.Wf.setVword {s : State} (h : s.Wf) (w va v : Nat) : (s.setVword w va v).Wf := by
  unfold State.setVword
  split
  · exact h
  · split
    · exact h.writeUnit _ _
    · exact (h.pokeN _ _ _).setMark _ _

theorem State.Wf.poolPush {s : State} (h : s.Wf) (w p frame : Nat) : (s.poolPush w p frame).Wf := by
  unfold State.poolPush
  exact State.Wf.ite h (State.Wf.ite h ((h.setVword _ _ _).setVword _ _ _))

theorem State.Wf.poolPop : ∀ (n : Nat) {s : State} (w p : Nat), s.Wf → (State.poolPop n s w p).1.Wf
  | 0, _, _, _, h => h
  | n + 1, s, w, p, h => by
    unfold State.poolPop
    extract_lets code a cap ht head tail f s1
    have h1 : s1.Wf := h.setVword _ _ _
    clear_value s1
    split
    · exact h
    · split
      · exact h
      · split
        · split
          · split
            · exact h1
            · exact State.Wf.poolPop n w p h1
          · exact h1
        · exact h1

theorem State.Wf.dropEntry {s : State} (h : s.Wf) (w table entry : Nat) : (s.dropEntry w table entry).Wf := by
  unfold State.dropEntry
  extract_lets e0 e1 s1 _ s2 x
  have h1 : s1.Wf := h.poolPush _ _ _
  have h2 : s2.Wf := ⟨h1.csr, h1.mem, h1.marks⟩
  clear_value s2
  have h2 := h2.setVword w entry x
  refine State.Wf.bump ?_ _ _ _
  unfold State.lowerDrop
  exact State.Wf.ite (h2.setVword _ _ _) h2

theorem State.Wf.releaseRef {s : State} (h : s.Wf) (r : PageRef) : (s.releaseRef r).Wf := by
  unfold State.releaseRef
  exact State.Wf.ite h (State.Wf.ite ((h.setVword _ _ _).dropEntry _ _ _) (h.setVword _ _ _))

/-! ### Removal of units -/

theorem State.Wf.discardTile {s : State} (h : s.Wf) (c : Nat) : (s.discardTile c).Wf :=
  (State.Wf.foldl (fun _ r hs => hs.releaseRef r) _ h).setCore _ _

theorem State.Wf.returnTile {s : State} (h : s.Wf) (c : Nat) : (s.returnTile c).Wf := by
  unfold State.returnTile
  split
  · exact h.discardTile _
  · exact (h.discardTile _).modTask _ _ _

theorem State.Wf.excludeCore {s : State} (h : s.Wf) (c : Nat) : (s.excludeCore c).Wf := (h.returnTile c).wr _ _ _

theorem State.Wf.excludeCluster {s : State} (h : s.Wf) (g : Nat) : (s.excludeCluster g).Wf :=
  (State.Wf.foldl (fun _ _ hs => hs.excludeCore _) _ h).setCluster _ _

theorem State.Wf.sramUncorrectable {s : State} (h : s.Wf) (a : Nat) : (s.sramUncorrectable a).Wf := by
  unfold State.sramUncorrectable
  extract_lets r s1 w count
  have h1 : s1.Wf := h.bump _ _ _
  clear_value s1
  have hc : ∀ (u : State) (k : Nat), u.Wf → (count u k).Wf := fun u k hu => ⟨hu.csr, hu.mem, hu.marks⟩
  clear_value count w r
  split
  · extract_lets s2 key s3
    have h3 : s3.Wf := hc _ _ ((h1.setMark _ _).event _ _ _ _ _ _ _)
    exact State.Wf.ite ((h3.event _ _ _ _ _ _ _).excludeCore _) h3
  · extract_lets s2 key s3
    have h3 : s3.Wf := hc _ _ ((h1.setMark _ _).event _ _ _ _ _ _ _)
    exact State.Wf.ite ((h3.event _ _ _ _ _ _ _).excludeCluster _) h3
  · extract_lets slot s2 src s3
    have h2 : s2.Wf := h1.event _ _ _ _ _ _ _
    have h3 : s3.Wf := ⟨h2.csr, h2.mem, h2.marks⟩
    exact State.Wf.ite h2 ((h3.wr _ _ _).event _ _ _ _ _ _ _)
  · exact h1

/-! ### Readers and writers -/

theorem State.Wf.touchWord {s : State} (h : s.Wf) (a : Nat) : (s.touchWord a).Wf := by
  unfold State.touchWord
  extract_lets k m
  refine State.Wf.ite h ?_
  split
  · exact h.touchHbm _ _
  · exact State.Wf.ite (h.setMark _ _) (State.Wf.ite (h.setMark _ _)
      (State.Wf.ite (h.sramUncorrectable _) ((h.settleWord _ _ _).bump _ _ _)))

theorem State.Wf.touch {s : State} (h : s.Wf) (a n : Nat) : (s.touch a n).Wf := by
  unfold State.touch
  exact State.Wf.ite h (State.Wf.foldl (fun _ _ hs => hs.touchWord _) _ h)

theorem State.Wf.read {s : State} (h : s.Wf) (a n : Nat) : (s.read a n).1.Wf := h.touch a n

theorem State.Wf.upset {s : State} (h : s.Wf) (us : List Upset) : (s.upset us).Wf :=
  State.Wf.foldl (fun s u hs => by
    dsimp only
    have h1 := State.Wf.setMark hs u.addr { s.mark u.addr with flips := (s.mark u.addr).flips ^^^ u.mask }
    exact State.Wf.ite ⟨h1.csr, h1.mem, h1.marks⟩ h1) _ h

theorem State.Wf.writeSram {s : State} (h : s.Wf) (a : Nat) (bs : List Byte) : (s.writeSram a bs).Wf := by
  unfold State.writeSram
  extract_lets part bad s1 s2 s3
  have h1 : s1.Wf := State.Wf.foldl (fun _ _ hs => hs.touchWord _) _ h
  have h2 : s2.Wf := State.Wf.foldl (fun _ _ hs => (hs.setMark _ _).bump _ _ _) _ h1
  have h3 : s3.Wf := State.Wf.ite h2 (State.Wf.foldl (fun _ _ hs => hs.setMark _ _) _ h2)
  exact h3.poke _ _

theorem State.Wf.write {s : State} (h : s.Wf) (a : Nat) (bs : List Byte) (poison : Bool) : (s.write a bs poison).Wf := by
  unfold State.write
  refine State.Wf.ite h ?_
  extract_lets s1
  have h1 : s1.Wf := by
    unfold s1
    split
    · exact State.Wf.foldl (fun _ _ hs => hs.writeUnit _ _) _ h
    · exact h.writeSram _ _
  clear_value s1
  refine State.Wf.ite (State.Wf.foldl (fun u w hu => ?_) _ h1) h1
  split
  · exact State.Wf.ite (hu.setMark _ _) hu
  · exact (hu.setMark _ _).bump _ _ _

theorem State.Wf.writeN {s : State} (h : s.Wf) (a n v : Nat) : (s.writeN a n v).Wf := h.write _ _ _

theorem State.Wf.touchRmw {s : State} (h : s.Wf) (a n : Nat) : (s.touchRmw a n).Wf := by
  unfold State.touchRmw
  split <;> exact h.touch _ _

theorem State.Wf.increment {s : State} (h : s.Wf) (a inc : Nat) : (s.increment a inc).1.Wf := by
  unfold State.increment
  extract_lets d s1
  have h1 : s1.Wf := h.touchRmw _ _
  split
  · exact h1
  · dsimp only
    exact h1.writeN _ _ _

theorem State.Wf.vread {s : State} (h : s.Wf) (ward a n : Nat) : (s.vread ward a n).1.Wf := by
  unfold State.vread
  have key : ∀ (l : List (Nat × Nat)) (acc : State × List Byte × Nat), acc.1.Wf →
      (l.foldl (fun (acc : State × List Byte × Nat) p =>
        let (s, bs, c) := acc
        match s.locate ward p.1 false with
        | (0, .phys l) => let (s, b, d) := s.read l p.2; (s, bs ++ b, firstCode [c, d])
        | (0, _) => let (s, b) := State.freeBytes p.2 s; (s, bs ++ b, c)
        | (code, _) => (s, bs ++ bytesOf p.2 0, firstCode [c, code])) acc).1.Wf := by
    intro l
    induction l with
    | nil => exact fun _ h => h
    | cons p l ih =>
      intro acc hacc
      refine ih _ ?_
      obtain ⟨t, bs, c⟩ := acc
      dsimp only
      split
      · exact State.Wf.read hacc _ _
      · exact State.Wf.freeBytes _ hacc
      · exact hacc
  exact key _ _ h

theorem State.Wf.vwrite {s : State} (h : s.Wf) (ward a : Nat) (bs : List Byte) (poison : Bool) :
    (s.vwrite ward a bs poison).Wf := by
  unfold State.vwrite
  refine State.Wf.foldl (fun u p hu => ?_) _ h
  split
  · exact hu.write _ _ _
  · exact hu

/-! ### What is read after a write -/

/-- A stored byte after bytes are stored from a on: one of them within their range, the earlier one outside it. -/
theorem get_pokeMem : ∀ (bs : List Byte) {m : List (Nat × Byte)} (a x : Nat), Memory.wf m →
    Smap.get 0 (pokeMem m a bs) x = if a ≤ x ∧ x < a + bs.length then bs.getD (x - a) 0 else Smap.get 0 m x
  | [], _, a, x, _ => by
    have h : ¬(a ≤ x ∧ x < a + ([] : List Byte).length) := by rw [List.length_nil]; omega
    rw [if_neg h, pokeMem]
  | b :: bs, m, a, x, h => by
    rw [pokeMem, get_pokeMem bs (a + 1) x (Smap.put_wf a b h)]
    by_cases hx : x = a
    · subst hx
      rw [Smap.get_put_self _ _ _ h, if_neg (by omega), if_pos (by simp only [List.length_cons]; omega)]
      simp
    · rw [Smap.get_put_other _ _ hx h]
      by_cases h1 : a + 1 ≤ x ∧ x < a + 1 + bs.length
      · rw [if_pos h1, if_pos (by simp only [List.length_cons]; omega), show x - a = x - (a + 1) + 1 by omega]
        simp
      · rw [if_neg h1, if_neg (by simp only [List.length_cons]; omega)]

theorem State.byte_poke {s : State} (h : s.Wf) (a : Nat) (bs : List Byte) (x : Nat) :
    (s.poke a bs).byte x = if a ≤ x ∧ x < a + bs.length then bs.getD (x - a) 0 else s.byte x :=
  get_pokeMem bs a x h.mem

/-- No word of a sound range is touched by a read. -/
theorem State.touch_of_no_marks {s : State} (h : s.marks = []) (a n : Nat) : s.touch a n = s := by
  simp [State.touch, h, Smap.within]

/-- A clean range reads as it is stored, with no damage and no effect. -/
theorem State.read_of_sound {s : State} (h : s.marks = []) {a n : Nat} (hs : s.sound a n = true) :
    s.read a n = (s, s.peek a n, 0) := by
  simp [State.read, State.touch_of_no_marks h, State.damage, hs]

/-- Without marks a range outside HBM is sound. -/
theorem State.sound_of_no_marks {s : State} (h : s.marks = []) {a n : Nat} (hr : ∀ off, region a ≠ .hbm off) :
    s.sound a n = true := by
  unfold State.sound
  cases hg : region a <;> simp_all [Smap.within]

/-- Reset has the canonical form. -/
theorem State.Wf.reset : State.reset.Wf := ⟨rfl, rfl, rfl⟩

end Sys2Proof.Machine
end

