-- ==== Sys2Proof/Laws/Updates.lean ====
section
/-! SUPPORT. What the updates of the links, the host, the export engine, the groups, the pseudo-channels and the CSR bus leave
alone, field by field. -/
namespace Sys2Proof.Machine

variable (s : State)

@[simp] theorem State.setPort_pending (p : Nat) (x : HingePort) : (s.setPort p x).pending = s.pending := rfl
@[simp] theorem State.setPort_freeCount (p : Nat) (x : HingePort) : (s.setPort p x).freeCount = s.freeCount := rfl
@[simp] theorem State.setPort_csr (p : Nat) (x : HingePort) : (s.setPort p x).csr = s.csr := rfl
@[simp] theorem State.setPort_mem (p : Nat) (x : HingePort) : (s.setPort p x).mem = s.mem := rfl
@[simp] theorem State.setPort_marks (p : Nat) (x : HingePort) : (s.setPort p x).marks = s.marks := rfl
@[simp] theorem State.setPort_cores (p : Nat) (x : HingePort) : (s.setPort p x).cores = s.cores := rfl
@[simp] theorem State.setPort_clusters (p : Nat) (x : HingePort) : (s.setPort p x).clusters = s.clusters := rfl
@[simp] theorem State.setPort_dies (p : Nat) (x : HingePort) : (s.setPort p x).dies = s.dies := rfl
@[simp] theorem State.setPort_requests (p : Nat) (x : HingePort) : (s.setPort p x).requests = s.requests := rfl
@[simp] theorem State.setPort_images (p : Nat) (x : HingePort) : (s.setPort p x).images = s.images := rfl
@[simp] theorem State.setPort_wards (p : Nat) (x : HingePort) : (s.setPort p x).wards = s.wards := rfl
@[simp] theorem State.setPort_hbm (p : Nat) (x : HingePort) : (s.setPort p x).hbm = s.hbm := rfl
@[simp] theorem State.setPort_coll (p : Nat) (x : HingePort) : (s.setPort p x).coll = s.coll := rfl
@[simp] theorem State.setPort_host (p : Nat) (x : HingePort) : (s.setPort p x).host = s.host := rfl
@[simp] theorem State.setPort_exporter (p : Nat) (x : HingePort) : (s.setPort p x).exporter = s.exporter := rfl
@[simp] theorem State.setPort_power (p : Nat) (x : HingePort) : (s.setPort p x).power = s.power := rfl
@[simp] theorem State.setPort_latch (p : Nat) (x : HingePort) : (s.setPort p x).latch = s.latch := rfl
@[simp] theorem State.setPort_log (p : Nat) (x : HingePort) : (s.setPort p x).log = s.log := rfl
@[simp] theorem State.setPort_journal (p : Nat) (x : HingePort) : (s.setPort p x).journal = s.journal := rfl
@[simp] theorem State.setPort_flash (p : Nat) (x : HingePort) : (s.setPort p x).flash = s.flash := rfl
@[simp] theorem State.setPort_sec (p : Nat) (x : HingePort) : (s.setPort p x).sec = s.sec := rfl
@[simp] theorem State.setPort_boot (p : Nat) (x : HingePort) : (s.setPort p x).boot = s.boot := rfl
@[simp] theorem State.setPort_side (p : Nat) (x : HingePort) : (s.setPort p x).side = s.side := rfl
@[simp] theorem State.setPort_jtag (p : Nat) (x : HingePort) : (s.setPort p x).jtag = s.jtag := rfl

@[simp] theorem State.modQp_pending (n : Nat) (f : Qp → Qp) : (s.modQp n f).pending = s.pending := rfl
@[simp] theorem State.modQp_freeCount (n : Nat) (f : Qp → Qp) : (s.modQp n f).freeCount = s.freeCount := rfl
@[simp] theorem State.modQp_csr (n : Nat) (f : Qp → Qp) : (s.modQp n f).csr = s.csr := rfl
@[simp] theorem State.modQp_mem (n : Nat) (f : Qp → Qp) : (s.modQp n f).mem = s.mem := rfl
@[simp] theorem State.modQp_marks (n : Nat) (f : Qp → Qp) : (s.modQp n f).marks = s.marks := rfl
@[simp] theorem State.modQp_cores (n : Nat) (f : Qp → Qp) : (s.modQp n f).cores = s.cores := rfl
@[simp] theorem State.modQp_clusters (n : Nat) (f : Qp → Qp) : (s.modQp n f).clusters = s.clusters := rfl
@[simp] theorem State.modQp_dies (n : Nat) (f : Qp → Qp) : (s.modQp n f).dies = s.dies := rfl
@[simp] theorem State.modQp_requests (n : Nat) (f : Qp → Qp) : (s.modQp n f).requests = s.requests := rfl
@[simp] theorem State.modQp_images (n : Nat) (f : Qp → Qp) : (s.modQp n f).images = s.images := rfl
@[simp] theorem State.modQp_wards (n : Nat) (f : Qp → Qp) : (s.modQp n f).wards = s.wards := rfl
@[simp] theorem State.modQp_hbm (n : Nat) (f : Qp → Qp) : (s.modQp n f).hbm = s.hbm := rfl
@[simp] theorem State.modQp_hinge (n : Nat) (f : Qp → Qp) : (s.modQp n f).hinge = s.hinge := rfl
@[simp] theorem State.modQp_coll (n : Nat) (f : Qp → Qp) : (s.modQp n f).coll = s.coll := rfl
@[simp] theorem State.modQp_exporter (n : Nat) (f : Qp → Qp) : (s.modQp n f).exporter = s.exporter := rfl
@[simp] theorem State.modQp_power (n : Nat) (f : Qp → Qp) : (s.modQp n f).power = s.power := rfl
@[simp] theorem State.modQp_latch (n : Nat) (f : Qp → Qp) : (s.modQp n f).latch = s.latch := rfl
@[simp] theorem State.modQp_log (n : Nat) (f : Qp → Qp) : (s.modQp n f).log = s.log := rfl
@[simp] theorem State.modQp_journal (n : Nat) (f : Qp → Qp) : (s.modQp n f).journal = s.journal := rfl
@[simp] theorem State.modQp_flash (n : Nat) (f : Qp → Qp) : (s.modQp n f).flash = s.flash := rfl
@[simp] theorem State.modQp_sec (n : Nat) (f : Qp → Qp) : (s.modQp n f).sec = s.sec := rfl
@[simp] theorem State.modQp_boot (n : Nat) (f : Qp → Qp) : (s.modQp n f).boot = s.boot := rfl
@[simp] theorem State.modQp_side (n : Nat) (f : Qp → Qp) : (s.modQp n f).side = s.side := rfl
@[simp] theorem State.modQp_jtag (n : Nat) (f : Qp → Qp) : (s.modQp n f).jtag = s.jtag := rfl

@[simp] theorem State.modGotar_pending (n : Nat) (f : Gotar → Gotar) : (s.modGotar n f).pending = s.pending := rfl
@[simp] theorem State.modGotar_freeCount (n : Nat) (f : Gotar → Gotar) : (s.modGotar n f).freeCount = s.freeCount := rfl
@[simp] theorem State.modGotar_csr (n : Nat) (f : Gotar → Gotar) : (s.modGotar n f).csr = s.csr := rfl
@[simp] theorem State.modGotar_mem (n : Nat) (f : Gotar → Gotar) : (s.modGotar n f).mem = s.mem := rfl
@[simp] theorem State.modGotar_marks (n : Nat) (f : Gotar → Gotar) : (s.modGotar n f).marks = s.marks := rfl
@[simp] theorem State.modGotar_cores (n : Nat) (f : Gotar → Gotar) : (s.modGotar n f).cores = s.cores := rfl
@[simp] theorem State.modGotar_clusters (n : Nat) (f : Gotar → Gotar) : (s.modGotar n f).clusters = s.clusters := rfl
@[simp] theorem State.modGotar_dies (n : Nat) (f : Gotar → Gotar) : (s.modGotar n f).dies = s.dies := rfl
@[simp] theorem State.modGotar_requests (n : Nat) (f : Gotar → Gotar) : (s.modGotar n f).requests = s.requests := rfl
@[simp] theorem State.modGotar_images (n : Nat) (f : Gotar → Gotar) : (s.modGotar n f).images = s.images := rfl
@[simp] theorem State.modGotar_wards (n : Nat) (f : Gotar → Gotar) : (s.modGotar n f).wards = s.wards := rfl
@[simp] theorem State.modGotar_hbm (n : Nat) (f : Gotar → Gotar) : (s.modGotar n f).hbm = s.hbm := rfl
@[simp] theorem State.modGotar_hinge (n : Nat) (f : Gotar → Gotar) : (s.modGotar n f).hinge = s.hinge := rfl
@[simp] theorem State.modGotar_coll (n : Nat) (f : Gotar → Gotar) : (s.modGotar n f).coll = s.coll := rfl
@[simp] theorem State.modGotar_exporter (n : Nat) (f : Gotar → Gotar) : (s.modGotar n f).exporter = s.exporter := rfl
@[simp] theorem State.modGotar_power (n : Nat) (f : Gotar → Gotar) : (s.modGotar n f).power = s.power := rfl
@[simp] theorem State.modGotar_latch (n : Nat) (f : Gotar → Gotar) : (s.modGotar n f).latch = s.latch := rfl
@[simp] theorem State.modGotar_log (n : Nat) (f : Gotar → Gotar) : (s.modGotar n f).log = s.log := rfl
@[simp] theorem State.modGotar_journal (n : Nat) (f : Gotar → Gotar) : (s.modGotar n f).journal = s.journal := rfl
@[simp] theorem State.modGotar_flash (n : Nat) (f : Gotar → Gotar) : (s.modGotar n f).flash = s.flash := rfl
@[simp] theorem State.modGotar_sec (n : Nat) (f : Gotar → Gotar) : (s.modGotar n f).sec = s.sec := rfl
@[simp] theorem State.modGotar_boot (n : Nat) (f : Gotar → Gotar) : (s.modGotar n f).boot = s.boot := rfl
@[simp] theorem State.modGotar_side (n : Nat) (f : Gotar → Gotar) : (s.modGotar n f).side = s.side := rfl
@[simp] theorem State.modGotar_jtag (n : Nat) (f : Gotar → Gotar) : (s.modGotar n f).jtag = s.jtag := rfl

@[simp] theorem State.modBinding_pending (b : Nat) (f : Binding → Binding) : (s.modBinding b f).pending = s.pending := rfl
@[simp] theorem State.modBinding_freeCount (b : Nat) (f : Binding → Binding) : (s.modBinding b f).freeCount = s.freeCount := rfl
@[simp] theorem State.modBinding_csr (b : Nat) (f : Binding → Binding) : (s.modBinding b f).csr = s.csr := rfl
@[simp] theorem State.modBinding_mem (b : Nat) (f : Binding → Binding) : (s.modBinding b f).mem = s.mem := rfl
@[simp] theorem State.modBinding_marks (b : Nat) (f : Binding → Binding) : (s.modBinding b f).marks = s.marks := rfl
@[simp] theorem State.modBinding_cores (b : Nat) (f : Binding → Binding) : (s.modBinding b f).cores = s.cores := rfl
@[simp] theorem State.modBinding_clusters (b : Nat) (f : Binding → Binding) : (s.modBinding b f).clusters = s.clusters := rfl
@[simp] theorem State.modBinding_dies (b : Nat) (f : Binding → Binding) : (s.modBinding b f).dies = s.dies := rfl
@[simp] theorem State.modBinding_requests (b : Nat) (f : Binding → Binding) : (s.modBinding b f).requests = s.requests := rfl
@[simp] theorem State.modBinding_images (b : Nat) (f : Binding → Binding) : (s.modBinding b f).images = s.images := rfl
@[simp] theorem State.modBinding_wards (b : Nat) (f : Binding → Binding) : (s.modBinding b f).wards = s.wards := rfl
@[simp] theorem State.modBinding_hbm (b : Nat) (f : Binding → Binding) : (s.modBinding b f).hbm = s.hbm := rfl
@[simp] theorem State.modBinding_hinge (b : Nat) (f : Binding → Binding) : (s.modBinding b f).hinge = s.hinge := rfl
@[simp] theorem State.modBinding_coll (b : Nat) (f : Binding → Binding) : (s.modBinding b f).coll = s.coll := rfl
@[simp] theorem State.modBinding_host (b : Nat) (f : Binding → Binding) : (s.modBinding b f).host = s.host := rfl
@[simp] theorem State.modBinding_power (b : Nat) (f : Binding → Binding) : (s.modBinding b f).power = s.power := rfl
@[simp] theorem State.modBinding_latch (b : Nat) (f : Binding → Binding) : (s.modBinding b f).latch = s.latch := rfl
@[simp] theorem State.modBinding_log (b : Nat) (f : Binding → Binding) : (s.modBinding b f).log = s.log := rfl
@[simp] theorem State.modBinding_journal (b : Nat) (f : Binding → Binding) : (s.modBinding b f).journal = s.journal := rfl
@[simp] theorem State.modBinding_flash (b : Nat) (f : Binding → Binding) : (s.modBinding b f).flash = s.flash := rfl
@[simp] theorem State.modBinding_sec (b : Nat) (f : Binding → Binding) : (s.modBinding b f).sec = s.sec := rfl
@[simp] theorem State.modBinding_boot (b : Nat) (f : Binding → Binding) : (s.modBinding b f).boot = s.boot := rfl
@[simp] theorem State.modBinding_side (b : Nat) (f : Binding → Binding) : (s.modBinding b f).side = s.side := rfl
@[simp] theorem State.modBinding_jtag (b : Nat) (f : Binding → Binding) : (s.modBinding b f).jtag = s.jtag := rfl

@[simp] theorem State.modGroup_pending (g : Nat) (f : Group → Group) : (s.modGroup g f).pending = s.pending := rfl
@[simp] theorem State.modGroup_freeCount (g : Nat) (f : Group → Group) : (s.modGroup g f).freeCount = s.freeCount := rfl
@[simp] theorem State.modGroup_csr (g : Nat) (f : Group → Group) : (s.modGroup g f).csr = s.csr := rfl
@[simp] theorem State.modGroup_mem (g : Nat) (f : Group → Group) : (s.modGroup g f).mem = s.mem := rfl
@[simp] theorem State.modGroup_marks (g : Nat) (f : Group → Group) : (s.modGroup g f).marks = s.marks := rfl
@[simp] theorem State.modGroup_cores (g : Nat) (f : Group → Group) : (s.modGroup g f).cores = s.cores := rfl
@[simp] theorem State.modGroup_clusters (g : Nat) (f : Group → Group) : (s.modGroup g f).clusters = s.clusters := rfl
@[simp] theorem State.modGroup_dies (g : Nat) (f : Group → Group) : (s.modGroup g f).dies = s.dies := rfl
@[simp] theorem State.modGroup_requests (g : Nat) (f : Group → Group) : (s.modGroup g f).requests = s.requests := rfl
@[simp] theorem State.modGroup_images (g : Nat) (f : Group → Group) : (s.modGroup g f).images = s.images := rfl
@[simp] theorem State.modGroup_wards (g : Nat) (f : Group → Group) : (s.modGroup g f).wards = s.wards := rfl
@[simp] theorem State.modGroup_hbm (g : Nat) (f : Group → Group) : (s.modGroup g f).hbm = s.hbm := rfl
@[simp] theorem State.modGroup_hinge (g : Nat) (f : Group → Group) : (s.modGroup g f).hinge = s.hinge := rfl
@[simp] theorem State.modGroup_host (g : Nat) (f : Group → Group) : (s.modGroup g f).host = s.host := rfl
@[simp] theorem State.modGroup_exporter (g : Nat) (f : Group → Group) : (s.modGroup g f).exporter = s.exporter := rfl
@[simp] theorem State.modGroup_power (g : Nat) (f : Group → Group) : (s.modGroup g f).power = s.power := rfl
@[simp] theorem State.modGroup_latch (g : Nat) (f : Group → Group) : (s.modGroup g f).latch = s.latch := rfl
@[simp] theorem State.modGroup_log (g : Nat) (f : Group → Group) : (s.modGroup g f).log = s.log := rfl
@[simp] theorem State.modGroup_journal (g : Nat) (f : Group → Group) : (s.modGroup g f).journal = s.journal := rfl
@[simp] theorem State.modGroup_flash (g : Nat) (f : Group → Group) : (s.modGroup g f).flash = s.flash := rfl
@[simp] theorem State.modGroup_sec (g : Nat) (f : Group → Group) : (s.modGroup g f).sec = s.sec := rfl
@[simp] theorem State.modGroup_boot (g : Nat) (f : Group → Group) : (s.modGroup g f).boot = s.boot := rfl
@[simp] theorem State.modGroup_side (g : Nat) (f : Group → Group) : (s.modGroup g f).side = s.side := rfl
@[simp] theorem State.modGroup_jtag (g : Nat) (f : Group → Group) : (s.modGroup g f).jtag = s.jtag := rfl

@[simp] theorem State.modPc_pending (p : Nat) (f : PseudoCh → PseudoCh) : (s.modPc p f).pending = s.pending := rfl
@[simp] theorem State.modPc_freeCount (p : Nat) (f : PseudoCh → PseudoCh) : (s.modPc p f).freeCount = s.freeCount := rfl
@[simp] theorem State.modPc_csr (p : Nat) (f : PseudoCh → PseudoCh) : (s.modPc p f).csr = s.csr := rfl
@[simp] theorem State.modPc_mem (p : Nat) (f : PseudoCh → PseudoCh) : (s.modPc p f).mem = s.mem := rfl
@[simp] theorem State.modPc_marks (p : Nat) (f : PseudoCh → PseudoCh) : (s.modPc p f).marks = s.marks := rfl
@[simp] theorem State.modPc_cores (p : Nat) (f : PseudoCh → PseudoCh) : (s.modPc p f).cores = s.cores := rfl
@[simp] theorem State.modPc_clusters (p : Nat) (f : PseudoCh → PseudoCh) : (s.modPc p f).clusters = s.clusters := rfl
@[simp] theorem State.modPc_dies (p : Nat) (f : PseudoCh → PseudoCh) : (s.modPc p f).dies = s.dies := rfl
@[simp] theorem State.modPc_requests (p : Nat) (f : PseudoCh → PseudoCh) : (s.modPc p f).requests = s.requests := rfl
@[simp] theorem State.modPc_images (p : Nat) (f : PseudoCh → PseudoCh) : (s.modPc p f).images = s.images := rfl
@[simp] theorem State.modPc_wards (p : Nat) (f : PseudoCh → PseudoCh) : (s.modPc p f).wards = s.wards := rfl
@[simp] theorem State.modPc_hinge (p : Nat) (f : PseudoCh → PseudoCh) : (s.modPc p f).hinge = s.hinge := rfl
@[simp] theorem State.modPc_coll (p : Nat) (f : PseudoCh → PseudoCh) : (s.modPc p f).coll = s.coll := rfl
@[simp] theorem State.modPc_host (p : Nat) (f : PseudoCh → PseudoCh) : (s.modPc p f).host = s.host := rfl
@[simp] theorem State.modPc_exporter (p : Nat) (f : PseudoCh → PseudoCh) : (s.modPc p f).exporter = s.exporter := rfl
@[simp] theorem State.modPc_power (p : Nat) (f : PseudoCh → PseudoCh) : (s.modPc p f).power = s.power := rfl
@[simp] theorem State.modPc_latch (p : Nat) (f : PseudoCh → PseudoCh) : (s.modPc p f).latch = s.latch := rfl
@[simp] theorem State.modPc_log (p : Nat) (f : PseudoCh → PseudoCh) : (s.modPc p f).log = s.log := rfl
@[simp] theorem State.modPc_journal (p : Nat) (f : PseudoCh → PseudoCh) : (s.modPc p f).journal = s.journal := rfl
@[simp] theorem State.modPc_flash (p : Nat) (f : PseudoCh → PseudoCh) : (s.modPc p f).flash = s.flash := rfl
@[simp] theorem State.modPc_sec (p : Nat) (f : PseudoCh → PseudoCh) : (s.modPc p f).sec = s.sec := rfl
@[simp] theorem State.modPc_boot (p : Nat) (f : PseudoCh → PseudoCh) : (s.modPc p f).boot = s.boot := rfl
@[simp] theorem State.modPc_side (p : Nat) (f : PseudoCh → PseudoCh) : (s.modPc p f).side = s.side := rfl
@[simp] theorem State.modPc_jtag (p : Nat) (f : PseudoCh → PseudoCh) : (s.modPc p f).jtag = s.jtag := rfl

@[simp] theorem State.setStaging_pending (r : Requester) (x : Option Staging) : (s.setStaging r x).pending = s.pending := rfl
@[simp] theorem State.setStaging_freeCount (r : Requester) (x : Option Staging) : (s.setStaging r x).freeCount = s.freeCount := rfl
@[simp] theorem State.setStaging_csr (r : Requester) (x : Option Staging) : (s.setStaging r x).csr = s.csr := rfl
@[simp] theorem State.setStaging_mem (r : Requester) (x : Option Staging) : (s.setStaging r x).mem = s.mem := rfl
@[simp] theorem State.setStaging_marks (r : Requester) (x : Option Staging) : (s.setStaging r x).marks = s.marks := rfl
@[simp] theorem State.setStaging_cores (r : Requester) (x : Option Staging) : (s.setStaging r x).cores = s.cores := rfl
@[simp] theorem State.setStaging_clusters (r : Requester) (x : Option Staging) : (s.setStaging r x).clusters = s.clusters := rfl
@[simp] theorem State.setStaging_dies (r : Requester) (x : Option Staging) : (s.setStaging r x).dies = s.dies := rfl
@[simp] theorem State.setStaging_requests (r : Requester) (x : Option Staging) : (s.setStaging r x).requests = s.requests := rfl
@[simp] theorem State.setStaging_images (r : Requester) (x : Option Staging) : (s.setStaging r x).images = s.images := rfl
@[simp] theorem State.setStaging_wards (r : Requester) (x : Option Staging) : (s.setStaging r x).wards = s.wards := rfl
@[simp] theorem State.setStaging_hbm (r : Requester) (x : Option Staging) : (s.setStaging r x).hbm = s.hbm := rfl
@[simp] theorem State.setStaging_hinge (r : Requester) (x : Option Staging) : (s.setStaging r x).hinge = s.hinge := rfl
@[simp] theorem State.setStaging_coll (r : Requester) (x : Option Staging) : (s.setStaging r x).coll = s.coll := rfl
@[simp] theorem State.setStaging_host (r : Requester) (x : Option Staging) : (s.setStaging r x).host = s.host := rfl
@[simp] theorem State.setStaging_exporter (r : Requester) (x : Option Staging) : (s.setStaging r x).exporter = s.exporter := rfl
@[simp] theorem State.setStaging_power (r : Requester) (x : Option Staging) : (s.setStaging r x).power = s.power := rfl
@[simp] theorem State.setStaging_latch (r : Requester) (x : Option Staging) : (s.setStaging r x).latch = s.latch := rfl
@[simp] theorem State.setStaging_log (r : Requester) (x : Option Staging) : (s.setStaging r x).log = s.log := rfl
@[simp] theorem State.setStaging_journal (r : Requester) (x : Option Staging) : (s.setStaging r x).journal = s.journal := rfl
@[simp] theorem State.setStaging_flash (r : Requester) (x : Option Staging) : (s.setStaging r x).flash = s.flash := rfl
@[simp] theorem State.setStaging_sec (r : Requester) (x : Option Staging) : (s.setStaging r x).sec = s.sec := rfl
@[simp] theorem State.setStaging_boot (r : Requester) (x : Option Staging) : (s.setStaging r x).boot = s.boot := rfl
@[simp] theorem State.setStaging_jtag (r : Requester) (x : Option Staging) : (s.setStaging r x).jtag = s.jtag := rfl

@[simp] theorem State.nameTable_pending (w table : Nat) : (s.nameTable w table).pending = s.pending := rfl
@[simp] theorem State.nameTable_freeCount (w table : Nat) : (s.nameTable w table).freeCount = s.freeCount := rfl
@[simp] theorem State.nameTable_csr (w table : Nat) : (s.nameTable w table).csr = s.csr := rfl
@[simp] theorem State.nameTable_mem (w table : Nat) : (s.nameTable w table).mem = s.mem := rfl
@[simp] theorem State.nameTable_marks (w table : Nat) : (s.nameTable w table).marks = s.marks := rfl
@[simp] theorem State.nameTable_cores (w table : Nat) : (s.nameTable w table).cores = s.cores := rfl
@[simp] theorem State.nameTable_clusters (w table : Nat) : (s.nameTable w table).clusters = s.clusters := rfl
@[simp] theorem State.nameTable_dies (w table : Nat) : (s.nameTable w table).dies = s.dies := rfl
@[simp] theorem State.nameTable_requests (w table : Nat) : (s.nameTable w table).requests = s.requests := rfl
@[simp] theorem State.nameTable_images (w table : Nat) : (s.nameTable w table).images = s.images := rfl
@[simp] theorem State.nameTable_hbm (w table : Nat) : (s.nameTable w table).hbm = s.hbm := rfl
@[simp] theorem State.nameTable_hinge (w table : Nat) : (s.nameTable w table).hinge = s.hinge := rfl
@[simp] theorem State.nameTable_coll (w table : Nat) : (s.nameTable w table).coll = s.coll := rfl
@[simp] theorem State.nameTable_host (w table : Nat) : (s.nameTable w table).host = s.host := rfl
@[simp] theorem State.nameTable_exporter (w table : Nat) : (s.nameTable w table).exporter = s.exporter := rfl
@[simp] theorem State.nameTable_power (w table : Nat) : (s.nameTable w table).power = s.power := rfl
@[simp] theorem State.nameTable_latch (w table : Nat) : (s.nameTable w table).latch = s.latch := rfl
@[simp] theorem State.nameTable_log (w table : Nat) : (s.nameTable w table).log = s.log := rfl
@[simp] theorem State.nameTable_journal (w table : Nat) : (s.nameTable w table).journal = s.journal := rfl
@[simp] theorem State.nameTable_flash (w table : Nat) : (s.nameTable w table).flash = s.flash := rfl
@[simp] theorem State.nameTable_sec (w table : Nat) : (s.nameTable w table).sec = s.sec := rfl
@[simp] theorem State.nameTable_boot (w table : Nat) : (s.nameTable w table).boot = s.boot := rfl
@[simp] theorem State.nameTable_side (w table : Nat) : (s.nameTable w table).side = s.side := rfl
@[simp] theorem State.nameTable_jtag (w table : Nat) : (s.nameTable w table).jtag = s.jtag := rfl

@[simp] theorem State.orStatus_pending (c bits : Nat) : (s.orStatus c bits).pending = s.pending := rfl
@[simp] theorem State.orStatus_freeCount (c bits : Nat) : (s.orStatus c bits).freeCount = s.freeCount := rfl
@[simp] theorem State.orStatus_csr (c bits : Nat) : (s.orStatus c bits).csr = s.csr := rfl
@[simp] theorem State.orStatus_mem (c bits : Nat) : (s.orStatus c bits).mem = s.mem := rfl
@[simp] theorem State.orStatus_marks (c bits : Nat) : (s.orStatus c bits).marks = s.marks := rfl
@[simp] theorem State.orStatus_clusters (c bits : Nat) : (s.orStatus c bits).clusters = s.clusters := rfl
@[simp] theorem State.orStatus_dies (c bits : Nat) : (s.orStatus c bits).dies = s.dies := rfl
@[simp] theorem State.orStatus_requests (c bits : Nat) : (s.orStatus c bits).requests = s.requests := rfl
@[simp] theorem State.orStatus_images (c bits : Nat) : (s.orStatus c bits).images = s.images := rfl
@[simp] theorem State.orStatus_wards (c bits : Nat) : (s.orStatus c bits).wards = s.wards := rfl
@[simp] theorem State.orStatus_hbm (c bits : Nat) : (s.orStatus c bits).hbm = s.hbm := rfl
@[simp] theorem State.orStatus_hinge (c bits : Nat) : (s.orStatus c bits).hinge = s.hinge := rfl
@[simp] theorem State.orStatus_coll (c bits : Nat) : (s.orStatus c bits).coll = s.coll := rfl
@[simp] theorem State.orStatus_host (c bits : Nat) : (s.orStatus c bits).host = s.host := rfl
@[simp] theorem State.orStatus_exporter (c bits : Nat) : (s.orStatus c bits).exporter = s.exporter := rfl
@[simp] theorem State.orStatus_power (c bits : Nat) : (s.orStatus c bits).power = s.power := rfl
@[simp] theorem State.orStatus_latch (c bits : Nat) : (s.orStatus c bits).latch = s.latch := rfl
@[simp] theorem State.orStatus_log (c bits : Nat) : (s.orStatus c bits).log = s.log := rfl
@[simp] theorem State.orStatus_journal (c bits : Nat) : (s.orStatus c bits).journal = s.journal := rfl
@[simp] theorem State.orStatus_flash (c bits : Nat) : (s.orStatus c bits).flash = s.flash := rfl
@[simp] theorem State.orStatus_sec (c bits : Nat) : (s.orStatus c bits).sec = s.sec := rfl
@[simp] theorem State.orStatus_boot (c bits : Nat) : (s.orStatus c bits).boot = s.boot := rfl
@[simp] theorem State.orStatus_side (c bits : Nat) : (s.orStatus c bits).side = s.side := rfl
@[simp] theorem State.orStatus_jtag (c bits : Nat) : (s.orStatus c bits).jtag = s.jtag := rfl

/-- A hinge port just written reads back. -/
theorem State.port_setPort_self {s : State} {p : Nat} (x : HingePort) (h : p < s.hinge.ports.length) :
    (s.setPort p x).port p = x := by
  simp [State.port, State.setPort, List.getD_eq_getElem?_getD, h]

/-- The other hinge ports are as before. -/
theorem State.port_setPort_other {s : State} {p q : Nat} (x : HingePort) (h : q ≠ p) :
    (s.setPort p x).port q = s.port q := by
  simp [State.port, State.setPort, List.getD_eq_getElem?_getD, List.getElem?_set_ne h.symm]

@[simp] theorem State.rd_setPort (p : Nat) (x : HingePort) (f : Fld) (i : Nat) : (s.setPort p x).rd f i = s.rd f i := rfl
@[simp] theorem State.rd_modQp (n : Nat) (g : Qp → Qp) (f : Fld) (i : Nat) : (s.modQp n g).rd f i = s.rd f i := rfl

end Sys2Proof.Machine
end

