-- ==== Sys2Proof/Laws/Words.lean ====
section
/-! SUPPORT. A field read out of a word that is put together from fields. -/
namespace Sys2Proof

/-- A field that lies in the low part of a word. -/
theorem extract_append_low {v w : Nat} (a : BitVec v) (b : BitVec w) (i n : Nat) (h : i + n ≤ w) :
    (a ++ b).extractLsb' i n = b.extractLsb' i n := by
  apply BitVec.eq_of_getLsbD_eq
  intro j hj
  simp only [BitVec.getLsbD_extractLsb', BitVec.getLsbD_append, hj, decide_true, Bool.true_and]
  rw [if_pos (by omega)]

/-- A field that lies in the high part of a word. -/
theorem extract_append_high {v w : Nat} (a : BitVec v) (b : BitVec w) (i n : Nat) (h : w ≤ i) :
    (a ++ b).extractLsb' i n = a.extractLsb' (i - w) n := by
  apply BitVec.eq_of_getLsbD_eq
  intro j hj
  simp only [BitVec.getLsbD_extractLsb', BitVec.getLsbD_append, hj, decide_true, Bool.true_and]
  rw [if_neg (by omega), show i + j - w = i - w + j by omega]

/-- A bit of the low part. -/
theorem bit_append_low {v w : Nat} (a : BitVec v) (b : BitVec w) (i : Nat) (h : i < w) :
    (a ++ b).getLsbD i = b.getLsbD i := by simp [BitVec.getLsbD_append, h]

/-- A bit of the high part. -/
theorem bit_append_high {v w : Nat} (a : BitVec v) (b : BitVec w) (i : Nat) (h : w ≤ i) :
    (a ++ b).getLsbD i = a.getLsbD (i - w) := by simp [BitVec.getLsbD_append, Nat.not_lt.2 h]

/-- A reserved field in two parts is whole again. -/
theorem extract_join {w : Nat} (a : BitVec w) (i n k m : Nat) (h : k = i + n) :
    a.extractLsb' k m ++ a.extractLsb' i n = a.extractLsb' i (m + n) := by
  subst h
  apply BitVec.eq_of_getLsbD_eq
  intro j hj
  simp only [BitVec.getLsbD_extractLsb', BitVec.getLsbD_append, hj, decide_true, Bool.true_and]
  split
  · simp_all
  · rw [show i + n + (j - n) = i + j by omega]
    simp only [show j - n < m by omega, decide_true, Bool.true_and]

end Sys2Proof
end

