-- ==== Sys2Proof/Machine/Pins.lean ====
section
/-! DEFINITION. What the device drives on its sideband pins (Table 20.7) and on STEP_OUT (R384, R466). -/
namespace Sys2Proof.Machine

/-- States of a sideband pin (Table 20.7). The I3C pins answer as R424 allows before step 4 ends. -/
inductive PinState where
  | highZ | low | high | released | idle | active | limited
deriving DecidableEq, Repr

/-- Whether the device has begun step 3 since it left reset, and its clocks run. -/
def State.begun (s : State) : Bool := s.boot.resetN && s.sclk

/-- XSPI_CLK, XSPI_CS_N, XSPI_DQ and XSPI_DS: active from step 3. -/
def State.xspiPins (s : State) : PinState := if s.begun then .active else .highZ

/-- XSPI_RESET_N: low while RESET_N is low. -/
def State.xspiReset (s : State) : PinState := if s.boot.resetN then .high else .low

/-- I3C_SCL and I3C_SDA. -/
def State.i3cPins (s : State) : PinState :=
  if s.boot.resetN = false then .highZ else
  match s.boot.phase with
  | .ready | .tripped | .stopped | .fatal => .active
  | _ => .limited

/-- ALERT_N, an open-drain output. -/
def State.alertPin (s : State) : PinState := if s.alertLow then .low else .released

/-- THERMTRIP_N, an open-drain output: low from a trip until supplies go or RESET_N falls (R381). -/
def State.thermtripPin (s : State) : PinState := if s.boot.resetN && s.boot.thermtrip then .low else .released

/-- AVS0 to AVS4: active from step 4, idle in reset and after a thermal trip. -/
def State.avsPins (s : State) : PinState :=
  if s.begun && decide (s.boot.phase ≠ .tripped) && decide (4 ≤ s.rd .sysStartStat_STEP) then .active else .idle

/-- STEP_OUT: high for the cycles that a declared boundary sets, held low outside the ready states (R384, R466). -/
def State.stepOut (s : State) : PinState := if s.begun && decide (s.latch.out ≠ 0) then .high else .low

end Sys2Proof.Machine
end

