-- ==== Sys2Proof/Tests/Slice0.lean ====
section
/-! SUPPORT. Tests of the model: ill-formed commands are refused, words of the spec's layouts decode, the spec's worked cases,
for every statement with hypotheses a state that meets them, and single steps. -/
set_option linter.unusedVariables false
set_option Elab.async false

namespace Sys2Proof.Machine

/-! ### Well-formedness: one ill-formed term for each check, and well-formed terms beside them -/

/-- Zero bytes. -/
def zeros (n : Nat) : List Byte := List.replicate n 0
/-- 28 temperatures of zero. -/
def zeros28 : List Nat := List.replicate 28 0

theorem test_illFormed1 : ([.nop 192 {}, .endTile 192 {}, .add 192 {}, .sub 192 {}, .and 192 {}, .or 192 {}, .xor 192 {}, .shl 192 {}, .shr
    192 {}, .sra 192 {}, .mul 192 {}, .minu 192 {}, .maxu 192 {}, .li 192 {}, .lis 192 {}, .ld 192 {}, .st 192 {},
    .tld 192 {}, .tbase 192 {}, .beq 192 {}, .bne 192 {}, .blt 192 {}, .bge 192 {}, .bltu 192 {}, .bgeu 192 {}, .jmp
    192 {}, .mma 192 {}, .cmma 192 {}, .mmfExp 192 {}, .mmfExp 0 { ext := false, dt := 1 }, .mmfRow 192 {}, .mmfRow
    0 { ext := false, dt := 1 }, .stationaryCopy 192 0, .stationaryCopy 0 4, .passTimeLimit 192 0, .passTimeLimit 0
    4, .engineFault 192 0 .residue, .engineFault 0 4 .residue, .vadd 192 {}, .vadd 0 { salt := 1 }] : List Instr).all (fun i => !i.wf) = true := by
  decide +kernel

theorem test_illFormed2 : ([.vsub 192 {}, .vsub 0 { salt := 1 }, .vmul 192 {}, .vmul 0 { salt := 1 }, .vfma 192 {}, .vfma 0 { salt := 1 },
    .vmin 192 {}, .vmin 0 { salt := 1 }, .vmax 192 {}, .vmax 0 { salt := 1 }, .vminnum 192 {}, .vminnum 0 { salt :=
    1 }, .vmaxnum 192 {}, .vmaxnum 0 { salt := 1 }, .vcmp 192 {}, .vcmp 0 { salt := 1 }, .vsel 192 {}, .vsel 0 {
    salt := 1 }, .vexp2 192 {}, .vexp2 0 { salt := 1 }, .vlog2 192 {}, .vlog2 0 { salt := 1 }, .vrcp 192 {}, .vrcp 0
    { salt := 1 }, .vsqrt 192 {}, .vsqrt 0 { salt := 1 }, .vrsqrt 192 {}, .vrsqrt 0 { salt := 1 }, .vdiv 192 {},
    .vdiv 0 { salt := 1 }, .cvt 192 {}, .cvt 0 { srb := 1 }, .vld 192 {}, .vld 0 { salt := 1 }, .vst 192 {}, .vst 0
    { salt := 1 }, .vbcast 192 {}, .vbcast 0 { salt := 1 }, .chainLd 192 {}, .epi 192 {}] : List Instr).all (fun i => !i.wf) = true := by
  decide +kernel

theorem test_illFormed3 : ([.epi 0 { ext := false }, .kva 192 {}, .kva 0 { salt := 1 }, .mov 192 {}, .movSig 192 {}, .movS 192 {}, .movG 192
    {}, .atomAdd 192 {}, .atomAdd 0 { aop := 1 }, .atomFetchAdd 192 { aop := 1 }, .atomFetchAdd 0 { aop := 2 },
    .atomSwap 192 { aop := 2 }, .atomSwap 0 { aop := 3 }, .atomCas 192 { aop := 3 }, .atomCas 0 { aop := 0 },
    .scatter 192 {}, .pageTrunc 192 {}, .attn 192 {}, .attn 0 { ext := false, bias := true }, .attnW 192 {}, .attnW
    0 { ext := false, bias := true }, .attnMrg 192 {}, .attnMrg 0 { ext := false, bias := true }, .walkValidation
    192 {}, .walkValidation 0 { ext := false, bias := true }, .colRs 192 {}, .colAr 192 {}, .colAg 192 {}, .colA2a
    192 {}, .fence 192 {}, .wait 192 {}, .waitI 192 {}, .signal 192 {}, .waitWake 192, .waitPoll 192, .waitTimeout
    192, .tilePull 192 0 0, .completionEntryWrite 16384, .planPoint 4, .claim 4 0 0] : List Instr).all (fun i => !i.wf) = true := by
  decide +kernel

theorem test_illFormed4 : ([.claim 0 512 0, .preemptionRequest 24, .coreStopped 192, .saveImageWritten 192, .clusterClearing 24, .taskResume
    192 0, .stepBoundarySeen 24, .read { op := 1, len := 1 } [], .read {} [{ addr := 1 }], .write { op := 1, len :=
    1 } [], .write {} [{ addr := 1 }], .writeSignal { op := 1, len := 1 }, .atomic { op := 1, len := 1 }, .readData
    { op := 1, len := 1 }, .ack { op := 1, len := 1 }, .atomicData { op := 1, len := 1 }, .nak { op := 1, len := 1
    }, .dieLinkCrcRetry 8, .dieLinkDown 8, .dieLinkFailed 8, .dataFlit 6 { payload := zeros 236 }, .dataFlit 0 {},
    .retryControlFlit { port := 6 } 0, .retryControlFlit {} 1024, .retireControlFlit { port := 6 },
    .leaveControlFlit { crn := 16 }, .hingeLinkDown 6, .hingeRetrainDone 6,
    .hingeRetrainTimeout 6, .hingeErrorWindowEnd 6, .portAnnouncement 6 {}, .portAnnouncement 0 { port := 6 },
    .routeChangeRelease 4096, .timeExchange 6, .timeFlit 6 {}, .timeFlit 0 { hops := 32 }, .peerSignalDetected 6,
    .hingeTrainingDone 6 0 0, .hingeTrainingDone 0 4096 0, .hingeTrainingDone 0 0 6, .hingeTrainingTimeout 6] : List Instr).all (fun i => !i.wf) = true := by
  decide +kernel

theorem test_illFormed5 : ([.groupAct 16384, .groupConfirm 64 0 false, .groupConfirm 0 6 false, .groupActTimeout 64, .groupDeact 16384,
    .groupReleased 64, .level0Reduction 64 0 0, .slotClaimGranted 64 0, .slotClaimGranted 0 3, .staging 64 0 0,
    .chunkReady { op := 1, len := 1 }, .reduceData { op := 1, len := 1 }, .gatherData { op := 1, len := 1 },
    .allToAllData { op := 1, len := 1 }, .operationDone 64 0, .opLimitExpiry 64 0, .grantTail 16384 0 0, .grantTail
    0 256 0, .psnSequenceErrorNak 16384, .rnrNak 16384, .rnrTimerExpiry 16384, .ackTimeout 16384, .retriesExhausted
    16384, .remoteAccessErrorNak 16384, .remoteOperationalErrorNak 16384, .exportLinkDown 5, .exportRetrainTimeout
    5, .exportFecWindowEnd 5 0, .inboundRdmaWrite { qpn := 16384 } 0 0 0 [], .inboundRdmaWrite { fit := .frame 5 } 0 0 0 [],
    .inboundRdmaRead { qpn := 16384 } 0 0 0 0,
    .rdmaWriteWithImmediate 16384, .sqTail 16384 0, .cqHead 16384 0, .submissionNop 16384, .run 16384,
    .ceMarkedPacket 16384, .cnp 16384, .rateRecoveryPeriodEnd 16384, .pfcPauseFrame 5 0 false, .pfcPauseFrame 0 8
    false] : List Instr).all (fun i => !i.wf) = true := by
  decide +kernel

theorem test_illFormed6 : ([.mappingCutoverDone 512, .windowQuery 4096 0 0 0 false, .windowQuery 0 8 0 0 false, .windowQuery 0 0 512 0
    false, .scrubDue 128, .patrolScrubRead 128 [], .patrolScrubRead 0 [{ addr := 1 }], .translationCopyRebuilt 4,
    .controlCoreFault 24 0, .estimationWindowEnd [] [], .frequencyStepDone 24, .avsbusResponse 4 false false,
    .avsbusRetryTimer 4, .droopDetected 24, .droopStretchEnd 24, .droopRecoveryEnd 24, .thermalTrip 28 0,
    .ceLimitWindowEnd 128, .deviceControllerUp [], .selfTest { failedCores := [192] }, .linkTraining [] [] false,
    .partnerEnable .i3c 256 0, .partnerDisable .i3c 256 0, .exportPortEnable 5, .dieLinkRetrainDone 8, .exportLinkUp
    5, .hostRdmaWriteAcknowledged 16384, .waitLimitExpiry 192, .windowQueryAnswer 4096 0 false, .windowQueryAnswer 0
    8 false, .descriptorExchange 6 0 0 0, .descriptorExchange 0 512 0 0] : List Instr).all (fun i => !i.wf) = true := by
  decide +kernel

theorem test_wellFormed1 : ([.nop 0 {}, .endTile 0 {}, .add 0 {}, .sub 0 {}, .and 0 {}, .or 0 {}, .xor 0 {}, .shl 0 {}, .shr 0 {}, .sra 0 {},
    .mul 0 {}, .minu 0 {}, .maxu 0 {}, .li 0 {}, .lis 0 {}, .ld 0 {}, .st 0 {}, .tld 0 {}, .tbase 0 {}, .beq 0 {},
    .bne 0 {}, .blt 0 {}, .bge 0 {}, .bltu 0 {}, .bgeu 0 {}, .jmp 0 {}, .mma 0 {}, .cmma 0 {}, .mmfExp 0 {}, .mmfRow
    0 {}, .stationaryCopy 0 0, .passTimeLimit 0 0, .engineFault 0 0 .residue, .vadd 0 {}, .vsub 0 {}, .vmul 0 {},
    .vfma 0 {}, .vmin 0 {}, .vmax 0 {}, .vminnum 0 {}] : List Instr).all (fun i => i.wf) = true := by
  decide +kernel

theorem test_wellFormed2 : ([.vmaxnum 0 {}, .vcmp 0 {}, .vsel 0 {}, .vexp2 0 {}, .vlog2 0 {}, .vrcp 0 {}, .vsqrt 0 {}, .vrsqrt 0 {}, .vdiv 0
    {}, .cvt 0 {}, .vld 0 {}, .vst 0 {}, .vbcast 0 {}, .chainLd 0 {}, .epi 0 {}, .kva 0 {}, .mov 0 {}, .movSig 0 {},
    .movS 0 {}, .movG 0 {}, .atomAdd 0 {}, .atomFetchAdd 0 { aop := 1 }, .atomSwap 0 { aop := 2 }, .atomCas 0 { aop
    := 3 }, .scatter 0 {}, .pageTrunc 0 {}, .attn 0 {}, .attnW 0 {}, .attnMrg 0 {}, .walkValidation 0 {}, .colRs 0
    {}, .colAr 0 {}, .colAg 0 {}, .colA2a 0 {}, .fence 0 {}, .wait 0 {}, .waitI 0 {}, .signal 0 {}, .waitWake 0,
    .waitPoll 0] : List Instr).all (fun i => i.wf) = true := by
  decide +kernel

theorem test_wellFormed3 : ([.waitTimeout 0, .tilePull 0 0 0, .completionEntryWrite 0, .planPoint 0, .claim 0 0 0, .preemptionRequest 0,
    .coreStopped 0, .saveImageWritten 0, .clusterClearing 0, .taskResume 0 0, .stepBoundarySeen 0, .read {} [],
    .write {} [], .writeSignal {}, .atomic {}, .readData {}, .ack {}, .atomicData {}, .nak {}, .dieLinkCrcRetry 0,
    .dieLinkDown 0, .dieLinkFailed 0, .dataFlit 0 { payload := zeros 236 }, .retryControlFlit {} 0,
    .retireControlFlit {}, .leaveControlFlit {}, .hingeLinkDown 0, .hingeRetrainDone 0, .hingeRetrainTimeout 0,
    .hingeErrorWindowEnd 0, .portAnnouncement 0 {}, .routeChangeRelease 0, .timeExchange 0, .timeFlit 0 {},
    .peerSignalDetected 0, .hingeTrainingDone 0 0 0, .hingeTrainingTimeout 0, .groupAct 0, .groupConfirm 0 0 false,
    .groupActTimeout 0] : List Instr).all (fun i => i.wf) = true := by
  decide +kernel

theorem test_wellFormed4 : ([.groupDeact 0, .groupReleased 0, .level0Reduction 0 0 0, .slotClaimGranted 0 0, .staging 0 0 0, .chunkReady {},
    .reduceData {}, .gatherData {}, .allToAllData {}, .operationDone 0 0, .opLimitExpiry 0 0, .grantTail 0 0 0,
    .psnSequenceErrorNak 0, .rnrNak 0, .rnrTimerExpiry 0, .ackTimeout 0, .retriesExhausted 0, .remoteAccessErrorNak
    0, .remoteOperationalErrorNak 0, .exportLinkDown 0, .exportRetrainTimeout 0, .exportFecWindowEnd 0 0,
    .inboundRdmaWrite {} 0 0 0 [], .inboundRdmaRead {} 0 0 0 0, .rdmaWriteWithImmediate 0, .sqTail 0 0, .cqHead 0 0,
    .submissionNop 0, .run 0, .ceMarkedPacket 0, .cnp 0, .rateRecoveryPeriodEnd 0, .pfcPauseFrame 0 0 false,
    .mappingCutoverDone 0, .windowQuery 0 0 0 0 false, .scrubDue 0, .patrolScrubRead 0 [], .translationCopyRebuilt
    0, .controlCoreFault 0 0, .estimationWindowEnd [] zeros28] : List Instr).all (fun i => i.wf) = true := by
  decide +kernel

theorem test_wellFormed5 : ([.frequencyStepDone 0, .avsbusResponse 0 false false, .avsbusRetryTimer 0, .droopDetected 0, .droopStretchEnd 0,
    .droopRecoveryEnd 0, .thermalTrip 0 0, .ceLimitWindowEnd 0, .deviceControllerUp [true, true, true, true],
    .selfTest {}, .linkTraining [] [.noSignal, .noSignal, .noSignal, .noSignal, .noSignal, .noSignal] false,
    .partnerEnable .i3c 0 0, .partnerDisable .i3c 0 0, .exportPortEnable 0, .dieLinkRetrainDone 0, .exportLinkUp 0,
    .hostRdmaWriteAcknowledged 0, .waitLimitExpiry 0, .windowQueryAnswer 0 0 false, .descriptorExchange 0 0 0 0] : List Instr).all (fun i => i.wf) = true := by
  decide +kernel

/-- Each field of a packet, a flit, a time flit and an announcement that does not fit is refused (Tables 10.3, 10.4). -/
theorem test_packetFields : ([{ dest := 4096 }, { src := 4096 }, { op := 32 }, { ward := 512 }, { dir := 8 }, { pseq := 65536 },
    { len := 65, data := zeros 4160 }, { addr := 2 ^ 52 }, { op := 1, len := 1 }, { data := zeros 64 }] : List Packet).all
      (fun p => !p.wf) = true ∧
    ({ op := 1, len := 1, data := zeros 64 } : Packet).wf = true := by decide +kernel

theorem test_flitFields : ([{ vc := 8, payload := zeros 236 }, { seq := 1024, payload := zeros 236 },
    { ack := 1024, payload := zeros 236 }, { crvc := 8, payload := zeros 236 }, { crn := 16, payload := zeros 236 },
    { payload := zeros 235 }, { payload := zeros 236, typ := 4 },
    { payload := zeros 236, errors := [(128, 1)] }, { payload := zeros 236, errors := [(5, 0)] },
    { payload := zeros 236, errors := [(5, 1), (5, 2)] }] : List Flit).all
      (fun f => !f.wf) = true ∧
    ({ root := 4096 } : TimeFlit).wf = false ∧ ({ hops := 32 } : TimeFlit).wf = false ∧
    ({ node := 4096 } : Announcement).wf = false ∧ ({ failedCores := [192] } : SelfTest).wf = false ∧
    ({ failedClusters := [24] } : SelfTest).wf = false ∧ ({ failedSlots := [4096] } : SelfTest).wf = false := by decide +kernel

/-- R306: a field of an extension word that is absent is refused unless it is 0. -/
theorem test_absentExtension :
    ([{ ext := false, form := 1 }, { ext := false, rsvExt := 1 }, { ext := false, dt := 1 }, { ext := false, darea := 1 },
      { ext := false, refBuf := 1 }] : List MmfWord).all (fun w => !w.wf) = true ∧
    ([{ srb := 1 }, { salt := 1 }, { rsvExt := 1 }] : List VecWord).all (fun w => !w.wf) = true ∧
    ([{ srb := 1 }, { salt := 1 }, { rsvExt := 1 }] : List CvtWord).all (fun w => !w.wf) = true ∧
    ([{ srb := 1 }, { salt := 1 }, { rsvExt := 1 }] : List VMemWord).all (fun w => !w.wf) = true ∧
    ([{ srb := 1 }, { salt := 1 }, { rsvExt := 1 }] : List KvaWord).all (fun w => !w.wf) = true ∧
    ([{ ext := false, srb := 1 }, { ext := false, salt := 1 }, { ext := false, bias := true }, { ext := false, send := 1 },
      { ext := false, npart := 1 }, { ext := false, rsvExt := 1 }] : List AttnWord).all (fun w => !w.wf) = true ∧
    ([fun w => { w with srb := 1 }, fun w => { w with salt := 1 }, fun w => { w with qscale := 1 }, fun w => { w with atile := 1 },
      fun w => { w with atile2 := 1 }, fun w => { w with defer := 1 }, fun w => { w with twopass := 1 },
      fun w => { w with npart := 1 }, fun w => { w with send := 1 }, fun w => { w with layout := 1 },
      fun w => { w with eng := 1 }, fun w => { w with dcols := 1 }, fun w => { w with rsvExt := 1 }] : List (EpiWord → EpiWord)).all
        (fun f => !(f { ext := false, atile2 := 0 }).wf) = true ∧
    ({ ext := false, atile2 := 0 } : EpiWord).wf = true := by decide +kernel

/-! ### Decoding: words written out from the layout tables -/

/-- The worked encoding of 12_instruction_reference.md: MMA.BF16.BF16 a0, t2, t3, engine 1; with IMM = 0x4_0001 the square
form. -/
theorem test_decode_mma :
    decodeWords 7 0x0026C00830100001 0 = some (.mma 7 { afmt := 3, bfmt := 3, ra := 2, rb := 3, eng := 1, sat := true }) ∧
    decodeWords 7 0x0026C00830140001 0 =
      some (.mma 7 { afmt := 3, bfmt := 3, ra := 2, rb := 3, eng := 1, form := 1, sat := true }) := by decide

/-- The worked chain word: W.MUL w0, ACC, s1 (Tables 12.10, 12.12), which no core issues directly. -/
theorem test_decode_chain :
    (let i := chainDecode 0xC240000441000000
     [i.op, i.mod, i.rd, i.a, i.b, i.c] = [0xC2, 0, 0, 0x04, 0x41, 0]) ∧ chainWordOk 0xC240000441000000 = true ∧
    decodeWords 7 0xC240000441000000 0 = none := by decide +kernel

/-- ADD s5, s6, -1 (Table 12.2). -/
theorem test_decode_add : decodeWords 7 0x02004518000FFFFF 0x0 = some (.add 7
      { i := true, rd := 5, ra := 6, imm := 0xFFFFF }) := by decide

/-- TLD t3, [s4 + 64]. -/
theorem test_decode_tld : decodeWords 7 0x1400031000000040 0x0 = some (.tld 7
      { rd := 3, ra := 4, imm := 64 }) := by decide

/-- BGE s1, s2, back 3 words. -/
theorem test_decode_bge : decodeWords 7 0x23000004200FFFFD 0x0 = some (.bge 7
      { ra := 1, rb := 2, imm := 0xFFFFD }) := by decide

/-- WAIT.I [s9], 12 (UNIT 6). -/
theorem test_decode_waitI : decodeWords 7 0x02C000240000000C 0x0 = some (.waitI 7
      { ra := 9, imm := 12 }) := by decide

/-- COL.AG s9, contributor 3 (UNIT 5). -/
theorem test_decode_colAg : decodeWords 7 0x02A0002400000003 0x0 = some (.colAg 7
      { ra := 9, imm := 3 }) := by decide

/-- MMF.ROW, SQUARE form, with its extension word (Table 12.7). -/
theorem test_decode_mmfRow : decodeWords 7 0x0336880420200005 0x4000A88400000000 = some (.mmfRow 7
      { afmt := 3, bfmt := 2, rd := 8, ra := 1, rb := 2, eng := 2, kind := true, init := true, form := 1,
        dt := 21, darea := 33 }) := by decide

/-- VFMA v1, v2, v3, v4, stochastic, SRB 12, SALT 0xABC (Table 12.8). -/
theorem test_decode_vfma : decodeWords 7 0x0350010831000002 0xCABC000000000000 = some (.vfma 7
      { ext := true, rd := 1, ra := 2, rb := 3, rc := 4, rnd := 2, srb := 12, salt := 0xABC }) := by decide

/-- VCMP.LE.INT32 v1, v2, v3. -/
theorem test_decode_vcmp : decodeWords 7 0x0844C10830000000 0x0 = some (.vcmp 7
      { type := 1, cc := 3, rd := 1, ra := 2, rb := 3 }) := by decide

/-- CVT.BF16.INT8 v5, v6, SAT (Table 12.11). -/
theorem test_decode_cvt : decodeWords 7 0x1046451800000004 0x0 = some (.cvt 7
      { src := 3, dst := 1, rd := 5, ra := 6, sat := true }) := by decide

/-- EPI with every field of Table 12.13 set. -/
theorem test_decode_epi : decodeWords 7 0x2154C928B3005565 0x51238B894566DC00 = some (.epi 7
      { slot := 2, arrange := 1, sat := true, statout := 9, darea := 10, sig := 11, out := 12, dcol := 0x155,
        qgran := 2, qcols := 1, rnd := 1, srb := 5, salt := 0x123, qscale := 17, atile := 3, atile2 := 8,
        defer := 2, twopass := 1, npart := 0x456, send := 1, layout := 2, eng := 3, dcols := 7 }) := by decide

/-- KVA from slot 7 (Table 12.14). -/
theorem test_decode_kva : decodeWords 7 0x224F003400000261 0x0 = some (.kva 7
      { slot := 7, arrange := 2, ra := 13, eng := 2, layout := 1, atile := 4, rnd := 1 }) := by decide

/-- ATTN.W (Table 12.15). -/
theorem test_decode_attnW : decodeWords 7 0x019843105181C825 0x3777A00000000000 = some (.attnW 7
      { rope := 2, shape := 1, out := 3, q := 4, acb := 5, walk := 6, stat := 7, marea := 8, sig := 9,
        rnd := 1, srb := 3, salt := 0x777, bias := true, send := 1 }) := by decide

/-- ATTN.MRG of 12 parts. -/
theorem test_decode_attnMrg : decodeWords 7 0x029003000001C800 0x1800000000 = some (.attnMrg 7
      { out := 3, stat := 7, marea := 8, npart := 12 }) := by decide

/-- MOV.SIG (Table 12.16a). -/
theorem test_decode_movSig : decodeWords 7 0x016001083100FFFF 0x0 = some (.movSig 7
      { rd := 1, ra := 2, rb := 3, rc := 4, imm := 0xFFFF }) := by decide

/-- ATOM with AOP 3, CAS. -/
theorem test_decode_atomCas : decodeWords 7 0x0866010831000000 0x0 = some (.atomCas 7
      { aop := 3, rd := 1, ra := 2, rb := 3, rc := 4 }) := by decide

/-- CHAIN.LD slot 2, [s5], 10 words (R319). -/
theorem test_decode_chainLd : decodeWords 7 0x204002140000000A 0x0 = some (.chainLd 7
      { rd := 2, ra := 5, n := 10 }) := by decide

/-- VST.BF16 v4, [s3 + 128] (R317). -/
theorem test_decode_vst : decodeWords 7 0x1243000C40000080 0x0 = some (.vst 7
      { fmt := 3, ra := 3, rb := 4, imm := 128 }) := by decide

/-- R44: a unit that Table 12.1 does not list, an opcode beyond a unit's, and a chain word are undefined. -/
theorem test_decode_undefined :
    decodeWords 7 0x00E0000000000000 0 = none ∧ decodeWords 7 0x2700000000000000 0 = none ∧
    decodeWords 7 0x0D00000000000000 0 = none ∧ decodeWords 7 0x0460000000000000 0 = none := by decide

/-! ### The worked cases of the spec -/

/-- Addresses of core 77 (01_device_organisation.md, 19_register_map.md): byte 0x40 of its memory, its exception record;
the HBM offsets of pseudo-channel 17 of stack 2 (16_faults_and_trouble_log.md); the doorbell window of queue pair 37
(13_host_port.md). -/
theorem test_addresses :
    coreAddr 77 + 0x40 = 0x8100009A00040 ∧ region 0x8100009A00040 = .core 77 0x40 ∧ clusterOf 77 = 9 ∧ dieOf 9 = 1 ∧
    region 0x82000031301D0 = .csr 0x31301D0 ∧ Reg.atCsr 0x31301D0 = some (.coreExcRecord, 77, 0) ∧
    pcNum 0x5102345670 = 81 ∧ stackOf 0x5102345670 = 2 ∧ pcOf 0x5102345670 = 17 ∧
    region 0x8300000025000 = .doorbell 37 0 := by decide +kernel

/-- The worked decodes of 03_number_formats.md, and the product of the first two. -/
theorem test_cof :
    (Num.decode .bf16 0x3FC0).cof = ⟨false, 0x1FF, 0x600⟩ ∧ (Num.decode .fp16 0x3C01).cof = ⟨false, 0x1FF, 0x401⟩ ∧
    (Num.decode .int8 0x81).cof = ⟨true, 0x205, 0x7F0⟩ ∧ (Num.decode .fp16 0x0001).cof = ⟨false, 0x1E7, 0x400⟩ ∧
    (let p := (Cof.num ⟨false, 0x1FF, 0x600⟩).mul (Cof.num ⟨false, 0x1FF, 0x401⟩)
     p.sig = 0x180600 ∧ p.ex = -20) := by decide +kernel

/-- The worked window (R71): 2^10 and -2^-60 in one group give 2^10 - 2^-52; +2^-60 vanishes. -/
theorem test_window :
    (let g := fun neg : Bool => (groupSum [{ cls := .fin, sig := 1, ex := 10 }, { cls := .fin, neg := neg, sig := 1, ex := -60 }]).sum
     (g true).add ⟨-(2 ^ 62 - 1), -52⟩ = ⟨0, -52⟩ ∧ ((g false).add ⟨-(2 ^ 62), -52⟩).m = 0 ∧
     roundWide .fp32 {} true (Wide.ofDy (g true)) = (0x44800000, 0)) := by decide +kernel

/-- The worked dot product (R93), BF16: an overflowing product and NaNs; each variation with its flags. -/
theorem test_dot :
    (let x := Num.decode .bf16
     let dot := fun (gs : List (List (Nat × Nat))) =>
       let r := gs.foldl (fun (a : Acc × Nat) g => let y := a.1.addGroup (groupSum (g.map fun p => (x p.1).mul (x p.2))) true; (y.1, a.2 ||| y.2)) ({}, 0)
       let c := roundWide .bf16 {} true r.1.value
       (c.1, c.2 ||| r.2)
     let rest := [(0x3F80, 0x3F80), (0xC000, 0x3F80)]
     dot [(0x7180, 0x7180) :: (0x7FC1, 0x3F80) :: rest] = (0x7FC0, 0) ∧
     dot [(0x7180, 0x7180) :: (0xFF81, 0x3F80) :: rest] = (0x7FC0, flInvalid) ∧
     dot [(0x7180, 0x7180) :: rest] = (0x7F80, flOverflow) ∧
     dot [[(0x7180, 0x7180), (0xF180, 0x7180), (0x0000, 0x3F80)]] = (0, 0) ∧
     dot [(0x7180, 0x7180) :: (0x7FC1, 0x3F80) :: rest, [(0x7F80, 0x0000)]] = (0x7FC0, flInvalid)) := by decide +kernel

/-- The worked INT8 block of R133: the scale 0x3CCA and the four codes. -/
theorem test_block :
    blockCodes .int8 ([0x40480000, 0xBF800000, 0x3F000000, 0x3C000000].map fun x => (Num.decode .fp32 x).final) =
      (0x3CCA, [0x7F, 0xD7, 0x14, 0], 0) := by decide +kernel

/-- The worked single-product case of R144: 1 + 2^-9 with a bias of -1.0 gives 0x3B00 fused, +0 in two roundings. -/
theorem test_fused :
    roundWide .bf16 {} true (Wide.ofDy ((Dy.mk 513 (-9)).add ⟨-1, 0⟩)) = (0x3B00, 0) ∧
    roundWide .bf16 {} true (Wide.ofDy ⟨513, -9⟩) = (0x3F80, 0) := by decide +kernel

/-- The worked attention row of 06_attention.md: a maximum that rises in the last block; the division and LSE. -/
theorem test_attentionRow :
    (let key := fun (slot : Nat) (s v : Dy) => ({ slot := slot, s := Wide.ofDy s, v := [(Wide.ofDy v).toNum] } : Key)
     let r0 := (Row.block { o := [{}] } [key 0 ⟨3, 0⟩ ⟨1, 0⟩, key 1 ⟨2, 0⟩ ⟨2, 0⟩] 64 true).row
     let out := Row.block r0 [key 64 ⟨11, -1⟩ ⟨-1, 0⟩] 64 true
     let r := out.row
     let eq := fun (a b : Dy) => decide ((a.add ⟨-b.m, b.e⟩).m = 0)
     r0.a = some 3 ∧ eq r0.l.w.dy ⟨3, -1⟩ = true ∧ eq (r0.o.getD 0 {}).w.dy ⟨2, 0⟩ = true ∧
     r.a = some 6 ∧ (out.cofs.map fun x => (x.sig, x.ex)) = [(0x5A8, -11)] ∧ eq r.l.w.dy ⟨229, -8⟩ = true ∧
     eq (r.o.getD 0 {}).w.dy ⟨-117, -8⟩ = true ∧ r.final .bf16 0 {} = (0xBF03, 0)) := by decide +kernel

/-- The worked index (R30): 15,360 tile indices, index 12,345. -/
theorem test_tileIndex :
    (let x : Task := { desc := [0, BitVec.ofNat 64 (2 * 2 ^ 16), BitVec.ofNat 64 (15360 * 2 ^ 16), BitVec.ofNat 64 (480 * 2 ^ 48 + 16 * 2 ^ 32 + 2 ^ 16)] }
     let t := x.ctx 0 0 0 12345
     (t.kp, t.tn, t.tm, t.b) = (1, 412, 12, 0)) := by decide +kernel

/-- The worked shares of R342: ward 5 with CL_MIN = 6 gets two clusters on dies 1 and 2 and one on dies 0 and 3. -/
theorem test_share : (List.range 4).map (share 6 5) = [1, 2, 2, 1] := by decide +kernel

/-- The worked queue of 13_host_port.md: completion 1,029 of a ring of 1,024 has PHASE 0, submission 300 of 256 lies at
44 x 128. -/
theorem test_ring : phaseOf 1029 1024 = 0 ∧ 1029 % 1024 = 5 ∧ phaseOf 1023 1024 = 1 ∧ 300 % 256 * 128 = 0x1600 := by decide

/-- The worked wear of 17_lifetime_record.md: the size of a SNAPSHOT and of a HISTORY record; the 461st HISTORY record
passes the compaction point. -/
theorem test_recordSizes : recordSize 3712 = 3728 ∧ recordSize 3392 = 3408 ∧ 3728 + 460 * 3408 < compactAt ∧
    compactAt ≤ 3728 + 461 * 3408 := by decide

/-- The check value of CRC-32C, the Castagnoli CRC of R413, over the nine digits. -/
theorem test_crc32c : crc32c ([0x31, 0x32, 0x33, 0x34, 0x35, 0x36, 0x37, 0x38, 0x39] : List Byte) = 0xE3069283 := by decide +kernel

/-- The worked route of 10_hinge_links.md: from 0x130 to 0x113 on a 4 x 4 x 4 torus the source leaves on X-; (3, 3, 1)
turns onto Y+ by the tie rule and, with the Y+ port of (3, 0, 1) retired, onto Y-. -/
theorem test_route :
    (let at_ := fun (n : Nat) => ([(Fld.hngTorusCfg_VALID, 1), (.hngTorusCfg_LX, 3), (.hngTorusCfg_LY, 3), (.hngTorusCfg_LZ, 3),
       (.hngTorusCfg_NODE, n)].foldl (fun (s : State) p => s.wr p.1 0 p.2)
         ([0, 1, 2, 3, 4, 5].foldl (fun (s : State) p => s.wr .hngPortStat_STATE p 2) State.reset))
     let retired := { at_ 0x133 with hinge := { (at_ 0x133).hinge with linkBad := [(0x103, 2)] } }
     (at_ 0x130).route { dest := 0x113 } none = some 1 ∧ (at_ 0x133).route { dest := 0x113, dir := 1 } (some 0) = some 2 ∧
     retired.route { dest := 0x113, dir := 1 } (some 0) = some 3) := by decide +kernel

/-- The worked reduce-scatter of 11_collectives.md: chunk 1,234 of a group that spans a 4 x 4 x 4 torus is owned by node
0x102 and travels in the minus direction; on X the partial starts at x = 1. -/
theorem test_chunkOwner :
    (let at_ := fun (n : Nat) => ([(Fld.hngTorusCfg_VALID, 1), (.hngTorusCfg_LX, 3), (.hngTorusCfg_LY, 3), (.hngTorusCfg_LZ, 3),
       (.hngTorusCfg_NODE, n)].foldl (fun (s : State) p => s.wr p.1 0 p.2) State.reset)
     let g : Group := { id := 5, w0 := 5 * 2 ^ 58 + 7 * 2 ^ 55 }
     (at_ 0x102).owns g 1234 = true ∧ (at_ 0).chunkPlus g 1234 = false ∧
     [1, 0, 3, 2].map (fun x => (at_ x).ringPlace g 1234 0) = [1, 2, 3, 4] ∧
     [3, 2, 1, 0].map (fun y => (at_ (2 + 16 * y)).ringPlace g 1234 1) = [1, 2, 3, 4] ∧
     [0, 3, 2, 1].map (fun z => (at_ (2 + 256 * z)).ringPlace g 1234 2) = [1, 2, 3, 4]) := by decide +kernel

/-- The worked cap change of 15_power_and_clocks.md: the budgets of wards 3 and 9 under a compute budget of 830 W, then
duty 12 and target 0.975 GHz for a cluster of ward 3, duty 6 and target 0.750 GHz for one of ward 9. -/
theorem test_capChange :
    (let leak := 5000 :: List.replicate 28 11700
     let dyn := 16000 :: List.replicate 13 15100 ++ [15200, 16600, 20000, 22000, 24000, 26000, 28000, 29000, 29500, 29800,
       31600, 33000, 35000, 37000, 39600]
     let s0 := (List.range 24).foldl (fun (s : State) g => s.wr .clkClusterStat_FREQ g 28) State.reset
     let s : State := { s0 with
       power := { s0.power with dyn := List.replicate 24 dyn, leak := List.replicate 30 [leak] },
       clusters := (List.range 24).map fun g => { ward := some (if g < 12 then 3 else 9) },
       wards := [{ id := 3, powerFrac := 160 }, { id := 9, powerFrac := 96 }] }
     let bs := s.budgets [] 830000
     bs = [(3, 500750), (9, 329250)] ∧ s.settings [] (s.budgetOf bs 0) 28 0 = (11, 23, 1) ∧
     s.settings [] (s.budgetOf bs 12) 28 12 = (5, 14, 1)) := by decide +kernel

/-- The worked synchronisation (R385, R386): edges 80 us before a boundary, 30 us after one, between the windows, and in a
boundary's own cycle. -/
theorem test_stepSync :
    (let s0 : State := { State.reset.wr .clkStepCfg_SYNC_EN 0 1 with boot := { phase := .ready, clocks := true, resetN := true } }
     let at_ := fun (since : Nat) => { s0 with latch := { since := since, length := 400000, declared := true } }
     let after := fun (s : State) => match execStepSyncEdge s with
       | .next t => (signed 32 (t.rd .clkStepStat_LAST_ADJ), t.rd .clkStepStat_STEP_COUNT, [t.rd .clkStepSyncStat_PULLS,
           t.rd .clkStepSyncStat_PUSHES, t.rd .clkStepSyncStat_OUTSIDE, t.rd .clkStepSyncStat_COINCIDENT], t.latch.since)
       | _ => (1, 1, [], 1)
     after (at_ 368000) = (-32000, 1, [1, 0, 0, 0], 0) ∧ after (at_ 12000) = (12000, 0, [0, 1, 0, 0], 0) ∧
     after (at_ 140000) = (0, 0, [0, 0, 1, 0], 140000) ∧ after (at_ 0) = (0, 0, [0, 0, 0, 1], 0)) := by decide +kernel

/-- The worked retirement of 16_faults_and_trouble_log.md: the same word of pseudo-channel 81 corrected at 3.20 h and at
14.70 h retires it; at 27.30 h it does not. -/
theorem test_retirement :
    (let h := fun (tenths : Nat) => tenths * 360000000000
     let live := ([0, 1, 2, 3].foldl (fun s i => s.wr .hbmPcMap_LIVE i 0xFFFFFFFF) State.reset)
     let first := (live.wr .sysTimeRaw_RAW 0 (h 32)).hbmCorrected 0x5102345670
     let second := fun (t : Nat) => (first.wr .sysTimeRaw_RAW 0 t).hbmCorrected 0x5102345670
     first.live 81 = true ∧ (first.log.queue.map fun e => (e.event, e.sev, e.unit)) = [(1, 1, 81)] ∧
     (second (h 147)).live 81 = false ∧
     ((second (h 147)).log.queue.map fun e => (e.event, e.sev, e.unit, e.detail)) =
       (first.log.queue.map fun e => (e.event, e.sev, e.unit, e.detail)) ++ [(4, 3, 81, 0x5102345670 + 1 * 2 ^ 60)] ∧
     (second (h 273)).live 81 = true) := by decide +kernel

/-- R450: STAT registers read their reset values; writing one field of a register leaves the others. -/
theorem test_fields :
    State.reset.rd .clkClusterStat_FREQ 3 = (Fld.info .clkClusterStat_FREQ).reset ∧
    (State.reset.wr .pwrCap_WATTS 0 1200).rd .pwrCap_WATTS = 1200 ∧
    (State.reset.wr .pwrCap_WATTS 0 1200).rd .logCfg_ALERT_SEV = State.reset.rd .logCfg_ALERT_SEV := by decide +kernel

/-! ### States that meet the hypotheses of the statements -/

/-- A ready device with every pseudo-channel live. -/
def ready : State :=
  { State.reset with
    csr := (([0, 1, 2, 3].foldl (fun (s : State) i => s.wr .hbmPcMap_LIVE i 0xFFFFFFFF) State.reset).wr .sysCoreMap_MAP 0 1).csr
    boot := { phase := .ready, clocks := true, resetN := true, dieLinksUp := List.replicate 8 true } }

/-- A tile of a task of ward 0 that is not locked, and a core that runs it. -/
def tile0 : TileCtx := { unlocked := true }
def core0 : Core := { phase := .running, tile := some tile0, pc := coreBase }

/-- The ready device with core 0 in a given state and cluster 0 in ward 0. -/
def with0 (k : Core) : State :=
  { ready with cores := k :: List.replicate 191 {}, clusters := { ward := some 0 } :: List.replicate 23 {} }

/-- The ready device, core 0 running. -/
def one : State := with0 core0

/-- A tensor descriptor (Table 2.7). -/
def descOf (base rows cols fmt stride : Nat) : BitVec 256 :=
  BitVec.ofNat 256 (base + fmt * 2 ^ 84 + (cols - 1) * 2 ^ 88 + (rows - 1) * 2 ^ 108 + stride * 2 ^ 160)

/-- A core with scalar and tensor registers. -/
def regs (ss : List (Nat × Word)) (ts : List (Nat × BitVec 256)) : Core :=
  ts.foldl (fun k p => k.setT p.1 p.2) (ss.foldl (fun k p => k.setS p.1 p.2) core0)

theorem clean_of {s : State} (h1 : s.marks = []) (h2 : s.csr = ready.csr) : s.Clean := by
  refine ⟨h1, fun p hp => ?_⟩
  have : s.live p = ready.live p := by simp only [State.live, State.rd, h2]
  rw [this]
  exact (by decide +kernel : ∀ p < 128, ready.live p = true) p hp

/-- Whether a state issues, as a test. -/
def issues (s : State) (c n : Nat) (t : TileCtx) : Bool :=
  decide (c < s.cores.length) && decide (s.issuing c = some t) && !s.regHeld c t && decide (s.fetch c t n = (s, 0))

theorem issues_of {s : State} {c n : Nat} {t : TileCtx} (h : issues s c n t = true) : s.Issues c n t := by
  simp only [issues, Bool.and_eq_true, decide_eq_true_eq, Bool.not_eq_true'] at h
  exact ⟨h.1.1.1, h.1.1.2, h.1.2, h.2⟩

/-- Whether a state is in canonical form, as a test. -/
def wfs (s : State) : Bool := Smap.wf 0 s.csr && (Smap.wf 0 s.mem && Smap.wf {} s.marks)

theorem wf_of {s : State} (h : wfs s = true) : s.Wf := by
  simp only [wfs, Bool.and_eq_true] at h
  exact ⟨h.1, h.2.1, h.2.2⟩

/-- Whether core c may use a range, as a test. -/
def usable (s : State) (c a n : Nat) (write : Bool := false) : Bool :=
  decide (a % n = 0) && s.own c a n && !s.blocked c a n write && s.sound (a % 2 ^ 52) n

theorem usable_of {s : State} {c a n : Nat} {write : Bool} (h : usable s c a n write = true) : s.Usable c a n write := by
  simp only [usable, Bool.and_eq_true, decide_eq_true_eq, Bool.not_eq_true'] at h
  exact ⟨h.1.1.1, h.1.1.2, h.1.2, h.2⟩

/-- The state that a command leaves. -/
def after (i : Instr) (s : State) : State := match exec i s with | .next t => t | _ => s

theorem one_issues : one.Issues 0 1 tile0 := issues_of (by decide +kernel)
theorem one_issues2 : one.Issues 0 2 tile0 := issues_of (by decide +kernel)
theorem one_wf : one.Wf := wf_of (by decide +kernel)
theorem one_clean : one.Clean := clean_of rfl rfl

/-! ### Witnesses: sequencer instructions -/

theorem test_wit_emptyQueue : ready.pending = [] ∧ Registers.wf ready.csr ∧ ready.boot.clocks = true ∧
    State.reset.boot.clocks = false := ⟨rfl, one_wf.csr, rfl, rfl⟩

theorem test_wit_decodeOfEncode :
    (Instr.attnW 7 { q := 4, bias := true, npart := 1 }).wf = true ∧
    (encodeWords (.attnW 7 { q := 4, bias := true, npart := 1 })).isSome = true := by decide

theorem test_wit_arithmetic : one.Issues 0 1 tile0 ∧
    (∃ p ∈ aluTable, p.1 0 {} = .add 0 {}) ∧
    (let w : ScalarWord := { i := true, rd := 63, ra := 1, imm := 0x80000 }; w.ok true true true (!w.i) w.i = true) ∧
    (let w : ScalarWord := { rd := 1, ra := 1, rb := 63 }; w.ok true true true (!w.i) w.i = true) :=
  ⟨one_issues, ⟨_, List.mem_cons_self, rfl⟩, by decide, by decide⟩

theorem test_wit_scalarRegisters : one.Issues 0 1 tile0 ∧
    ({} : ScalarWord).ok false false false false false = true ∧
    ({ rd := 63, imm := 0xFFFFF } : ScalarWord).ok false true false false true = true ∧
    ({ rd := 31, ra := 5, imm := 1 } : ScalarWord).ok false true true false true = true ∧ Smap.wf 0 core0.s = true :=
  ⟨one_issues, by decide, by decide, by decide, by decide⟩

/-- The last 32 bytes of core 0's memory are named by s5 plus an immediate. -/
def s32 : State := with0 (regs [(5, BitVec.ofNat 64 (coreBase + 0x200000)), (6, 77)] [])

theorem test_wit_loadsAndStores : s32.Issues 0 1 tile0 ∧ s32.Wf ∧
    (let w : ScalarWord := { rd := 31, ra := 5, imm := 0xFFFE0 }
     let a := ((s32.core 0).sreg w.ra.toNat + w.imm.signExtend 64).toNat
     w.ok false true true false true = true ∧ s32.Usable 0 a 8 ∧ s32.Usable 0 a 32) ∧
    ({ ra := 5, rb := 6, imm := 0xFFFE0 } : ScalarWord).ok false false true true true = true :=
  ⟨issues_of (by decide +kernel), wf_of (by decide +kernel), ⟨by decide, usable_of (by decide +kernel), usable_of (by decide +kernel)⟩,
    by decide⟩

theorem test_wit_instructionFaults : s32.Issues 0 1 tile0 ∧
    (let w : ScalarWord := { rd := 1, ra := 5, imm := 0xFFFFC }
     let a := ((s32.core 0).sreg w.ra.toNat + w.imm.signExtend 64).toNat
     w.ok false true true false true = true ∧ s32.blocked 0 a 8 = false ∧ a % 8 ≠ 0 ∧ s32.own 0 a 8 = false ∧
     s32.blocked 0 a 32 = false ∧ a % 32 ≠ 0) ∧
    (let w : ScalarWord := { ra := 5, rb := 6 }
     let a := ((s32.core 0).sreg w.ra.toNat + w.imm.signExtend 64).toNat
     w.ok false false true true true = true ∧ s32.blocked 0 a 8 = false ∧ a % 8 = 0 ∧ s32.own 0 a 8 = false) ∧
    ({ rsv := 1 } : ScalarWord).rsv ≠ 0 ∧ ({ form := 3 } : MmaWord).form = 3 ∧ ({ aop := 1 } : MoveWord).aop ≠ 0 :=
  ⟨issues_of (by decide +kernel), by decide +kernel, by decide +kernel, by decide, by decide, by decide⟩

theorem test_wit_branches : one.Issues 0 1 tile0 ∧ (one.core 0).pc < 2 ^ 64 ∧
    ({ ra := 1, rb := 2, imm := 0x80000 } : ScalarWord).ok false false true true true = true ∧
    ({ imm := 0x7FFFF } : ScalarWord).ok false false false false true = true :=
  ⟨one_issues, by decide +kernel, by decide, by decide⟩

/-! ### Witnesses: synchronisation -/

/-- s5 names a word of core 0's memory and s6 a value that it has reached, s7 one that it has not; s8 names the word 64. -/
def sSync : State := with0 (regs [(5, BitVec.ofNat 64 (coreBase + 64)), (7, 3)] [])

theorem test_wit_synchronisation : sSync.Issues 0 1 tile0 ∧ sSync.Wf ∧ (sSync.core 0).ops = [] ∧
    ({} : ScalarWord).ok false false false false false = true ∧
    sSync.waitPlace 0 (coreBase + 64) = (0, .phys (coreBase + 64)) ∧ sSync.sound (coreBase + 64) 8 = true ∧
    (let k := sSync.core 0
     (k.sreg 5).toNat = coreBase + 64 ∧ ({ ra := 5, rb := 6 } : ScalarWord).ok false false true true false = true ∧
     (k.sreg 6).toNat ≤ sSync.peekN (coreBase + 64) 8 ∧ sSync.peekN (coreBase + 64) 8 < (k.sreg 7).toNat) ∧
    ({ ra := 5, imm := 0 } : ScalarWord).ok false false true false true = true ∧
    sSync.signalPlace 0 (coreBase + 64) = (0, .phys (coreBase + 64)) ∧ (coreBase + 64) % 8 = 0 ∧
    (∀ off, region (coreBase + 64) ≠ .hbm off) ∧
    (let w : ScalarWord := { ra := 5, imm := 0xFFFF }; w.ok false false true false true = true ∧ 0 < w.imm.toNat ∧ w.imm.toNat < 2 ^ 16) :=
  ⟨issues_of (by decide +kernel), wf_of (by decide +kernel), by decide, by decide, by decide +kernel, by decide +kernel,
    by decide +kernel, by decide, by decide +kernel, by decide +kernel,
    (fun off h => by rw [show region (coreBase + 64) = .core 0 64 by decide +kernel] at h; cases h), by decide⟩

/-- Core 0 waits for a word of its memory, for a word of HBM, or for a copy to be pushed. -/
def sWait (x : Waiting) : State := with0 { core0 with phase := .waiting, wait := some x }

theorem test_wit_waits :
    (let s := sWait (.signal coreBase 0)
     0 < s.cores.length ∧ (s.core 0).phase = .waiting ∧ (s.core 0).wait = some (.signal coreBase 0) ∧
     s.sound coreBase 8 = true ∧ 0 ≤ s.peekN coreBase 8 ∧ inHbm coreBase = false) ∧
    (let s := sWait (.signal hbmBase 1)
     (s.core 0).wait = some (.signal hbmBase 1) ∧ s.sound hbmBase 8 = true ∧ s.peekN hbmBase 8 < 1 ∧ inHbm hbmBase = true) ∧
    (let s := sWait (.scatter 64)
     (s.core 0).wait = some (.scatter 64) ∧ ∀ a v, Waiting.scatter 64 ≠ .signal a v) :=
  ⟨by decide +kernel, by decide +kernel, rfl, fun _ _ h => by cases h⟩

/-! ### Witnesses: vector instructions -/

theorem test_wit_vector : one.Issues 0 (wordsOfExt false) tile0 ∧ one.Issues 0 (wordsOfExt true) tile0 ∧
    Smap.wf 0 (one.core 0).v = true ∧
    (let w : VecWord := { rd := 1, ra := 2, rb := 3, rnd := 1 }
     vecOk w true true false false = true ∧ w.type = 0 ∧ w.rnd ≠ 2 ∧ tile0.Heeds [w.norm.srb.toNat, w.norm.salt.toNat]) ∧
    vecOk { rd := 1, ra := 2, rb := 3, rc := 4 } false true true false = true ∧
    vecOk { rd := 1, ra := 2 } false false false false = true ∧
    (let w : VecWord := { type := 1, rd := 1, ra := 2, rb := 3 }; vecOk w true true false false = true ∧ w.type = 1) ∧
    (let w : VecWord := { type := 1, cc := 3, rd := 1, ra := 2, rb := 3 }
     vecOk w true true false true = true ∧ w.type = 1 ∧ w.cc.toNat < 4) ∧
    vecOk { rd := 1, ra := 2, rb := 3, rc := 4 } true true true false = true :=
  ⟨one_issues, one_issues2, by decide +kernel, ⟨by decide, by decide, by decide, .inl rfl⟩, by decide, by decide, by decide,
    by decide, by decide⟩

theorem test_wit_comparison : one.Issues 0 (wordsOfExt false) tile0 ∧ Smap.wf 0 (one.core 0).v = true ∧
    (let w : VecWord := { cc := 4, rd := 1, ra := 2, rb := 3 }
     vecOk w true true false true = true ∧ w.type = 0 ∧ w.cc.toNat ≤ 4 ∧ tile0.Heeds [w.norm.srb.toNat, w.norm.salt.toNat]) :=
  ⟨one_issues, by decide +kernel, by decide, by decide, by decide, .inl rfl⟩

theorem test_wit_conversion : one.Issues 0 (wordsOfExt false) tile0 ∧
    (let w : CvtWord := { src := 3, dst := 1, rd := 1, ra := 2, rnd := 1 }
     tile0.Heeds [w.norm.srb.toNat, w.norm.salt.toNat] ∧ Fmt.ofCvt w.src.toNat = some .bf16 ∧ Fmt.ofCvt w.dst.toNat = some .int8 ∧
     cvtDefined .bf16 .int8 = true ∧ w.rsv = 0 ∧ w.norm.rsvExt = 0 ∧ w.rb = 0 ∧ w.rc = 0 ∧ w.rnd.toNat < 2) ∧
    (let r : Rounding := { mode := .sr, srb := 15, draw := 32767 }
     (0x0001 : Nat) < 2 ^ Fmt.fp16.bits ∧ r.draw < 2 ^ r.srb ∧ (Num.decode .fp16 0x0001).cls = .fin) :=
  ⟨one_issues, ⟨.inl rfl, by decide⟩, by decide⟩

theorem test_wit_vectorMemory :
    (let s := with0 (regs [(5, BitVec.ofNat 64 (coreBase + 0x200000))] [])
     let w : VMemWord := { fmt := 4, rd := 63, ra := 5, imm := 0xFFF00 }
     let x : VMemWord := { fmt := 4, ra := 5, rb := 63, imm := 0xFFF00 }
     s.Issues 0 (wordsOfExt w.ext) tile0 ∧ s.Wf ∧ Smap.wf 0 (s.core 0).v = true ∧ tile0.Heeds [w.norm.srb.toNat, w.norm.salt.toNat] ∧
     Fmt.ofCode w.fmt.toNat = some .fp32 ∧ s.Usable 0 ((s.core 0).sreg w.ra.toNat + w.imm.signExtend 64).toNat (8 * Fmt.fp32.bits) ∧
     vmemOk w true false = true ∧ vmemOk x false true = true) :=
  ⟨issues_of (by decide +kernel), wf_of (by decide +kernel), by decide +kernel, .inl rfl, by decide, usable_of (by decide +kernel),
    by decide, by decide⟩

theorem test_wit_tumbler : (1 : Word) ≠ 0 ∧ 64 ≤ 64 := by decide

/-! ### Witnesses: matrix engines -/

/-- Memory with 64-bit words stored at addresses. -/
def memOf (ws : List (Nat × Nat)) : List (Nat × Byte) := ws.foldl (fun m p => pokeMem m p.1 (bytesOf 8 p.2)) []

/-- t1 to t4 name BF16 tensors of 2 x 2 (t2 also of one column), t5 an OUT tensor of 2 x 2, s5 a free area. -/
def sMat : State := with0 (regs [(5, BitVec.ofNat 64 (coreBase + 4096))]
  [(1, descOf coreBase 2 2 3 64), (2, descOf (coreBase + 128) 2 2 3 64), (3, descOf (coreBase + 256) 2 2 3 64),
   (4, descOf (coreBase + 384) 2 2 3 64), (5, descOf (coreBase + 1024) 2 2 3 64)])

theorem sMat_issues1 : sMat.Issues 0 1 tile0 := issues_of (by decide +kernel)
theorem sMat_issues2 : sMat.Issues 0 2 tile0 := issues_of (by decide +kernel)

theorem test_wit_matrixProduct : sMat.Issues 0 1 tile0 ∧ Smap.wf {} (sMat.core 0).acc = true ∧
    ∀ acc : Bool,
      let w : MmaWord := { afmt := 3, bfmt := 3, rd := 7, ra := 1, rb := 3, split := 2, acc := acc }
      let j := mmaJob (sMat.core 0) tile0 w false
      mmaOk w false = true ∧ w.gather = false ∧ tile0.Heeds [w.form.toNat] ∧ sMat.mmaHeld 0 w j = false ∧ sMat.mmaCode 0 w false j = 0 ∧
      (∀ p ∈ j.a.ranges 0 j.m 0 j.kLen ++ j.b.ranges 0 j.kLen 0 j.n, sMat.sound (p.1 % 2 ^ 52) p.2 = true) ∧ 1 < j.m ∧ 1 < j.n :=
  ⟨sMat_issues1, by decide +kernel, by decide +kernel⟩

theorem test_wit_complexProduct : sMat.Issues 0 1 tile0 ∧
    (let w : MmaWord := { afmt := 3, bfmt := 3, rd := 3, ra := 1, rb := 3 }
     let j := mmaJob (sMat.core 0) tile0 w true
     mmaOk w true = true ∧ w.gather = false ∧ tile0.Heeds [w.form.toNat] ∧ sMat.mmaHeld 0 w j = false ∧ sMat.mmaCode 0 w true j = 0 ∧
     (∀ d ∈ [j.a, j.a2], ∀ p ∈ d.ranges 0 j.m 0 j.kLen, sMat.sound (p.1 % 2 ^ 52) p.2 = true) ∧
     (∀ d ∈ [j.b, j.b2], ∀ p ∈ d.ranges 0 j.kLen 0 j.n, sMat.sound (p.1 % 2 ^ 52) p.2 = true) ∧ 1 < j.m) :=
  ⟨sMat_issues1, by decide +kernel⟩

theorem test_wit_fusedProducts : sMat.Issues 0 2 tile0 ∧ sMat.Wf ∧ sMat.Clean ∧ ∀ row init : Bool,
    let w : MmfWord := { afmt := 3, bfmt := 3, rd := 7, ra := 1, rb := 2, dt := 3, darea := 5, init := init }
    let j := mmfJob (sMat.core 0) tile0 w
    mmfOk w row = true ∧ w.ref = false ∧ tile0.Heeds [w.form.toNat] ∧
    (j.reads w.init).any (fun r => sMat.blocked 0 r.1 r.2) = false ∧ sMat.mmfCode 0 w j = 0 :=
  ⟨sMat_issues2, wf_of (by decide +kernel), clean_of rfl rfl, by decide +kernel⟩

/-- Core 0 running tile 3 of task 0 of request 1, replayed before or not, and the cores that the tile has excluded. -/
def tile3 : TileCtx := { req := 1, idx := 3 }
def sFault (replays : Nat) (ex : List (Nat × Nat)) : State :=
  { with0 { core0 with tile := some tile3, replays := replays } with requests := [{ id := 1, tasks := [{ excludedCores := ex }] }] }

theorem test_wit_engineFaults : ∀ p ∈ [(0, []), (1, [(3, 9)]), (1, [(2, 9)])],
    let s := sFault p.1 p.2
    (s.core 0).tile = some tile3 ∧ (s.core 0).active = true ∧
    (let s1 := (s.wr .engStat_LAST_CAUSE 0 4).wr .engStat_LAST_ENG 0 3
     ((s1.task 1 0).map (·.excludedCores)).getD [] = p.2) := by decide +kernel

theorem test_wit_stationaryCopy : ∀ rows ∈ [[], [0], [1, 0]],
    (let b : List Cof := [⟨false, 511, 1024⟩]
     let s := with0 { core0 with engines := [{ staged := [b], rows := rows }, {}, {}, {}] }
     let x := (s.core 0).engines.getD 0 {}
     0 < s.cores.length ∧ 0 < (s.core 0).engines.length ∧ x.staged = [b] ∧ x.tag < 2 ∧ x.regs.length = 2 ∧
     x.copied = false ∧ s.engineWaits 0 0 = false ∧ (1 - x.tag ∈ x.rows ↔ rows = [1, 0])) := by
  decide +kernel

/-! ### Witnesses: chains, EPI and KVA -/

/-- Two chain words in core 0's memory, or two words of zeros. -/
def sChain (x : Nat) : State :=
  { with0 (regs [(5, BitVec.ofNat 64 (coreBase + 64))] []) with mem := memOf ((List.range 2).map fun i => (coreBase + 64 + 8 * i, x)) }

theorem test_wit_chainLoads : ∀ x ∈ [0xC240000441000000, 0],
    let s := sChain x
    issues s 0 1 tile0 = true ∧
    (let w : ChainLdWord := { rd := 3, ra := 5, n := 2 }
     let a := ((s.core 0).sreg w.ra.toNat).toNat
     let words := (List.range 2).map fun i => s.peekN (a % 2 ^ 52 + 8 * i) 8
     w.rsv = 0 ∧ w.ext = false ∧ w.rd.toNat < 4 ∧ 0 < w.n.toNat ∧ w.n.toNat ≤ 64 ∧ a % 64 = 0 ∧ s.own 0 a 16 = true ∧
     s.blocked 0 a 16 = false ∧ s.sound (a % 2 ^ 52) 16 = true ∧ chainOk words = decide (x ≠ 0)) := by decide +kernel

theorem test_wit_epi : sMat.Issues 0 2 tile0 ∧ sMat.Clean ∧ ∀ rnd ∈ ([0, 1] : List (BitVec 2)),
    let w : EpiWord := { slot := 7, out := 5, rnd := rnd }
    epiOk w = true ∧ tile0.Heeds [w.srb.toNat, w.salt.toNat, w.layout.toNat] ∧ w.send.toNat < 2 ∧ tile0.splitK = 1 ∧
    (let k := sMat.core 0
     let w' := epiInForce w tile0
     let p := epiPlan k w'
     (p.reads k w').any (fun r => sMat.blocked 0 r.1 r.2) = false ∧ sMat.epiCode 0 k tile0 w' p = 0) ∧
    w.defer = 0 ∧ w.twopass = 0 ∧ w.qgran = 0 ∧ w.statout = 0 ∧ w.rnd.toNat < 2 :=
  ⟨sMat_issues2, clean_of rfl rfl, by decide +kernel⟩

/-- A ward with a page of HBM at virtual address 0: a page table at 0x1000 (BF16, D = 16, one page), its entries at 0x2000
(FILLING, frames at 0x4000 and 0x4800), an append block at 0x3000 and the same as a scatter buffer at 0x5000, a walk block of
one position at 0x6000. s5 to s8 name the blocks, s9 the ends of positions. -/
def sKv : State :=
  { with0 (regs [(5, 0x3000), (6, 0x5000), (7, 0x1000), (8, 0x6000), (9, 2 ^ 20), (10, BitVec.ofNat 64 (coreBase + 0x1000)), (11, BitVec.ofNat 64 (coreBase + 0x2000))]
      [(1, descOf coreBase 1 16 3 64), (2, descOf (coreBase + 64) 1 16 3 64)]) with
    wards := [{ id := 0, maps := [{ va := 0, log := 21, target := .hbm hbmBase }] }]
    requests := [{ id := 0, phase := .running, tasks := [{ phase := .dispatched }] }]
    mem := memOf ([(0x1000, 16 * 2 ^ 13 + 3 * 2 ^ 9), (0x1010, 0x2000),
      (0x2000, 2 ^ 61 + 2 ^ 54 + 3 * 2 ^ 50), (0x2008, 0x4000 / 64 * 2 ^ 19), (0x2010, 2 ^ 61 + 2 ^ 54 + 3 * 2 ^ 50), (0x2018, 0x4800 / 64 * 2 ^ 19),
      (0x3000, 0x1000), (0x3008, 1 * 2 ^ 25), (0x5000, 0x1000), (0x5008, 1 * 2 ^ 25), (0x5018, 1), (0x5020, 1), (0x6000, 0x1000)].map
        (fun p => (hbmBase + p.1, p.2)) ++
      [(coreBase + 0x1000, 0x3F800000 * 2 ^ 32 + 2 ^ 24 + 16), (coreBase + 0x1008, 1), (coreBase + 0x1020, coreBase + 0x8000)]) }

theorem sKv_issues1 : sKv.Issues 0 1 tile0 := issues_of (by decide +kernel)
theorem sKv_clean : sKv.Clean := clean_of rfl rfl

/-- The KV state with its first entry changed. -/
def sPage (f : KvEnt → KvEnt) : State := sKv.setEnt 0 0x2000 (f (sKv.ent 0 0x2000))

/-- Whether an entry and its frame lie at places of HBM, as a test. -/
def entryIn (s : State) (ad x : Nat) : Bool :=
  decide (s.entCode 0 ad = 0) && decide (s.home 0 ad = some x) && decide (s.home 0 (ad + 8) = some (x + 8))

theorem test_wit_kva : sKv.Clean ∧ sKv.Wf ∧ sKv.Issues 0 1 tile0 ∧
    (let s := sKv
     let k := s.core 0
     let w : KvaWord := { slot := 7, ra := 5 }
     let a := Append.ofBytes (s.vread 0 0x3000 64).2.1
     let tab := (s.kvTab 0 a.w0).2.1
     let e := s.ent 0 0x2000
     let r := pageRows a.pos0 a.n (a.pos0 / 16)
     kvaOk w = true ∧ tile0.Heeds [w.norm.srb.toNat, w.norm.salt.toNat, w.norm.layout.toNat] ∧ k.accHeld = false ∧
     (let prog := chainStages (k.slots.getD w.slot.toNat [])
      (tensorUses k (prog.1 ++ prog.2.1) 1 1 0).any fun u => s.blocked 0 u.d.base u.d.span) = false ∧
     s.vread 0 (k.adr w.ra.toNat) 64 = (s, (s.vread 0 0x3000 64).2.1, 0) ∧ s.kvTab 0 a.w0 = (s, tab, 0) ∧
     s.kvaCode 0 k w.norm (kvaPlan k w.norm tab a) = 0 ∧ tile0.splitK ≤ 1 ∧ (s.req tile0.req).isSome = true ∧ a.pos0 % 16 + a.n ≤ 16 ∧
     tab.entry a.layer a.head a.kind (a.pos0 / 16) = 0x2000 ∧ entryIn s 0x2000 (hbmBase + 0x2000) = true ∧
     (∀ i < 32 * tab.d, s.locate 0 (e.frame + i) true = (0, .phys (hbmBase + 0x4000 + i)) ∧ inHbm (hbmBase + 0x4000 + i) = inHbm (hbmBase + 0x4000)) ∧
     hbmBase + 0x2000 + 16 ≤ hbmBase + 0x4000 ∧ e.held = true ∧ tab.older e r.j = false ∧ e.fill = r.lo ∧ tab.int = false ∧
     e.fmtCode = tab.fmtCode ∧ tab.fate e r 0 = .ready ∧ a.rot = false ∧ w.norm.rnd.toNat < 2) :=
  ⟨sKv_clean, wf_of (by decide +kernel), sKv_issues1, by decide +kernel⟩

/-- The other cases of a KVA: its rows are there already, or it is a part of a split K. -/
theorem test_wit_kvaCases :
    (let s := sPage fun e => { e with fill := 2 }
     let a := Append.ofBytes (s.vread 0 0x3000 64).2.1
     issues s 0 1 tile0 = true ∧ wfs s = true ∧ s.marks = [] ∧ s.csr = ready.csr ∧ s.entCode 0 0x2000 = 0 ∧
     (s.kvTab 0 a.w0).2.1.fate (s.ent 0 0x2000) (pageRows a.pos0 a.n (a.pos0 / 16)) 0 = .skip) ∧
    (let t : TileCtx := { tile0 with splitK := 2 }
     let s := sKv.setCore 0 { sKv.core 0 with tile := some t }
     issues s 0 1 t = true ∧ 1 < t.splitK) := by decide +kernel

theorem test_wit_scatter : ∀ p ∈ [(1, pFilling, PageFate.ready), (2, pFilling, .skip), (1, pExporting, .wait)],
    let s := sPage fun e => { e with fill := p.1, state := p.2.1, pcount := 1 }
    let w : MoveWord := { ra := 6 }
    let bs := (s.vread 0 0x5000 64).2.1
    let a := Append.ofBytes bs
    let tab := (s.kvTab 0 a.w0).2.1
    let e := s.ent 0 0x2000
    let r := pageRows a.pos0 a.n (a.pos0 / 16)
    issues s 0 1 tile0 = true ∧ wfs s = true ∧ s.marks = [] ∧ s.csr = ready.csr ∧ w.ok false false false false = true ∧
    s.vread 0 ((s.core 0).adr w.ra.toNat) 64 = (s, bs, 0) ∧ wordAt bs 4 % 256 = 1 ∧ s.kvTab 0 a.w0 = (s, tab, 0) ∧
    a.layer < tab.layers ∧ a.head < tab.heads ∧ a.pos0 + a.n ≤ 16 * tab.pages ∧
    s.vread 0 (0x5000 + 64) (a.n * tab.d * 2) = (s, (s.vread 0 0x5040 (a.n * tab.d * 2)).2.1, 0) ∧
    (∀ i < 64, s.locate 0 (0x5000 + i) true = (0, .phys (hbmBase + 0x5000 + i)) ∧ inHbm (hbmBase + 0x5000 + i) = inHbm (hbmBase + 0x5000)) ∧
    a.w3 = 1 ∧ a.pos0 % 16 + a.n ≤ 16 ∧ tab.entry a.layer a.head a.kind (a.pos0 / 16) = 0x2000 ∧
    entryIn s 0x2000 (hbmBase + 0x2000) = true ∧ tab.fate e r 1 = p.2.2 ∧
    (decide (p.2.2 ≠ .ready) || (e.held && !tab.older e r.j && decide (e.fill = r.lo) && decide (e.fmtCode = tab.fmtCode) && !tab.int &&
      (List.range (32 * tab.d)).all fun i => decide (s.locate 0 (e.frame + i) true = (0, .phys (hbmBase + 0x4000 + i))) &&
        decide (inHbm (hbmBase + 0x4000 + i) = inHbm (hbmBase + 0x4000)))) = true := by
  decide +kernel

/-- A buffer that does not wait. -/
theorem test_wit_scatterIdle :
    (let s := sKv.pokeN (hbmBase + 0x5020) 8 2
     issues s 0 1 tile0 = true ∧ wfs s = true ∧ (s.vread 0 0x5000 64).2.2 = 0 ∧ wordAt (s.vread 0 0x5000 64).2.1 4 % 256 ≠ 1) := by decide +kernel

theorem test_wit_trunc : ∀ refs ∈ [0, 1],
    let s := sPage fun e => { e with fill := 3, refs := refs }
    let s := s.setCore 0 ((s.core 0).setS 12 1)
    let w : MoveWord := { ra := 7, rb := 12 }
    let tab := (s.kvTab 0 0x1000).2.1
    let ent := fun i => s.ent 0 (tab.entries + 16 * i)
    issues s 0 1 tile0 = true ∧ wfs s = true ∧ s.marks = [] ∧ s.csr = ready.csr ∧ w.ok false true false false = true ∧
    s.kvTab 0 ((s.core 0).adr w.ra.toNat) = (s, tab, 0) ∧ tab.count = 2 ∧ s.home 0 (tab.addr + 24) = some (hbmBase + 0x1018) ∧
    (∀ i < 2, entryIn s (tab.entries + 16 * i) (hbmBase + 0x2000 + 16 * i) = true) ∧ s.exporter.bindings = [] ∧ tab.int = false ∧
    ((ent 0).refs ≠ 0 ↔ refs = 1) ∧ (ent 0).state ≠ pExporting ∧ truncHits 1 (ent 0) = true ∧ truncHits 1 (ent 1) = false ∧
    (ent 0).held = true ∧ truncKeep 1 (ent 0) ≠ 0 ∧ 2 ^ 20 ≤ ((s.core 0).sreg 9).toNat := by decide +kernel

/-- The KVA of that witness has written its row: the entry's FILL is 2. -/
theorem test_kva :
    (let u := after (.kva 0 { slot := 7, ra := 5 }) sKv
     ((u.ent 0 0x2000).fill, (u.ent 0 0x2010).fill, (u.core 0).phase, (u.core 0).touched) = (2, 1, .running, [0x1000])) := by
  decide +kernel

/-! ### Witnesses: moves, atomics, attention -/

/-- s5 to s8 name a source, a destination, a length of 128 and a signal word in core 0's memory; s9 a word of node 1 of a ring
of two, s10 a move descriptor. -/
def sMove : State :=
  { with0 (regs [(5, BitVec.ofNat 64 coreBase), (6, BitVec.ofNat 64 (coreBase + 4096)), (7, 128), (8, BitVec.ofNat 64 (coreBase + 8192)),
      (9, BitVec.ofNat 64 (2 ^ 52 + coreBase)), (10, BitVec.ofNat 64 (coreBase + 0x3000))] []) with
    mem := memOf [(coreBase + 0x3000, coreBase), (coreBase + 0x3008, coreBase + 4096), (coreBase + 0x3010, 2 ^ 32),
      (coreBase + 0x3018, 64), (coreBase + 0x3020, 64), (coreBase + 0x3028, 64), (coreBase + 0x3038, coreBase + 0x4000)] }

theorem sMove_issues : sMove.Issues 0 1 tile0 := issues_of (by decide +kernel)
theorem sMove_clean : sMove.Clean := clean_of rfl rfl
theorem sMove_wf : sMove.Wf := wf_of (by decide +kernel)

theorem test_wit_moves : sMove.Issues 0 1 tile0 ∧ sMove.Wf ∧ sMove.Clean ∧
    (let w : MoveWord := { rd := 8, ra := 5, rb := 6, rc := 7, imm := 0xFFFF }
     let r := movOperands (sMove.core 0) w
     sMove.rowsHeld 0 0 [r] = false ∧ 0 < r.len ∧ r.len ≤ 2 ^ 30 ∧ sMove.moveCode 0 [r] = 0 ∧
     (∀ i < r.len, sMove.locate 0 (r.src + i) false = (0, .phys (coreBase + i)) ∧
       sMove.locate 0 (r.dst + i) true = (0, .phys (coreBase + 4096 + i))) ∧
     coreBase + r.len ≤ coreBase + 4096 ∧ (∀ i < r.len, inHbm (coreBase + 4096 + i) = inHbm (coreBase + 4096)) ∧
     ({ w with rd := 0, imm := 0 } : MoveWord).ok false true true false = true ∧ w.ok true true true true = true ∧ w.imm ≠ 0 ∧
     sMove.movSigCode 0 r (coreBase + 8192) = 0 ∧ sMove.signalPlace 0 (coreBase + 8192) = (0, .phys (coreBase + 8192)) ∧
     (coreBase + 8192) % 8 = 0 ∧ coreBase + r.len ≤ coreBase + 8192 ∧ coreBase + 4096 + r.len ≤ coreBase + 8192 ∧ (sMove.core 0).ops = []) :=
  ⟨sMove_issues, sMove_wf, sMove_clean, by decide +kernel⟩

theorem test_wit_descriptorMoves : sMove.Issues 0 1 tile0 ∧ sMove.Clean ∧ sMove.Wf ∧
    ({ ra := 10 } : MoveWord).ok false false false false = true ∧
    (let s := sMove
     let a := coreBase + 0x3000
     let d : MoveDesc := ({ w := (List.range 8).map fun i => s.peekN (a % 2 ^ 52 + 8 * i) 8 } : MoveDesc).at_ (s.core 0)
     let idx := (List.range d.n1).map fun i => s.peekN (d.list % 2 ^ 52 + 4 * i) 4
     let here := fun rows : List MoveRow => (rows.flatMap MoveRow.pieces).all fun p =>
       decide (s.locate 0 p.src false = (0, .phys p.src)) && decide (s.locate 0 p.dst true = (0, .phys p.dst)) &&
         decide (∀ i < p.len, inHbm (p.dst + i) = inHbm p.dst)
     let apart := fun rows : List MoveRow => let ps := rows.flatMap MoveRow.pieces
       (List.range ps.length).all fun i => (List.range ps.length).all fun j =>
         let p := ps.getD i {}
         let q := ps.getD j {}
         (decide (i = j) || decide (p.dst + p.len ≤ q.dst) || decide (q.dst + q.len ≤ p.dst)) &&
           (decide (p.dst + p.len ≤ q.src) || decide (q.src + q.len ≤ p.dst))
     a % 64 = 0 ∧ s.own 0 a 64 = true ∧ s.blocked 0 a 64 = false ∧ bits (d.word 2) 15 1 = 0 ∧
     tile0.unlocked = true ∧ s.rowsHeld 0 0 d.rowsS = false ∧ d.strideCode false = 0 ∧ s.moveCode 0 d.rowsS = 0 ∧
     here d.rowsS = true ∧ apart d.rowsS = true ∧ (d.rowsS.flatMap MoveRow.pieces).length = 2 ∧
     d.n2 = 1 ∧ d.n1 ≤ 4096 ∧ d.strideCode true = 0 ∧ s.own 0 d.list (4 * d.n1) = true ∧ s.blocked 0 d.list (4 * d.n1) = false ∧
     s.rowsHeld 0 0 (d.rowsG idx) = false ∧ (∀ x ∈ idx, x = 0xFFFFFFFF ∨ x < d.word 4) ∧ s.moveCode 0 (d.rowsG idx) = 0 ∧
     here (d.rowsG idx) = true ∧ apart (d.rowsG idx) = true ∧ (d.rowsG idx).length = 2) ∧
    (let t : TileCtx := {}
     issues (sMove.setCore 0 { sMove.core 0 with tile := some t }) 0 1 t = true ∧ t.unlocked = false) :=
  ⟨sMove_issues, sMove_clean, sMove_wf, by decide, by decide +kernel, by decide +kernel⟩

/-- The same device as node 0 of a ring of two on X whose ports are up. -/
def sTorus : State :=
  { sMove with csr := ([(Fld.hngTorusCfg_VALID, 0, 1), (.hngTorusCfg_LX, 0, 1), (.hngPortStat_STATE, 0, 2), (.hngPortStat_STATE, 1, 2)].foldl
      (fun (s : State) p => s.wr p.1 p.2.1 p.2.2) sMove).csr }

theorem test_wit_atoms : sMove.Issues 0 1 tile0 ∧ sMove.Wf ∧ issues sTorus 0 1 tile0 = true ∧ wfs sTorus = true ∧
    (∀ p ∈ [(0, 0, 0), (1, 63, 0), (2, 63, 0), (3, 63, 7)],
      let w : MoveWord := { aop := BitVec.ofNat 2 p.1, rd := BitVec.ofNat 6 p.2.1, ra := 8, rb := 5, rc := BitVec.ofNat 6 p.2.2 }
      w.rsv = 0 ∧ w.ext = false ∧ w.imm = 0 ∧ (w.aop = 0 → w.rd = 0) ∧ (w.aop ≠ 3 → w.rc = 0)) ∧
    (let a := coreBase + 8192
     sMove.blocked 0 a 8 = false ∧ a % 8 = 0 ∧ ¬(a / 2 ^ 52 = sMove.node ∧ inReduction a = true) ∧
     sMove.locate 0 a true = (0, .phys a) ∧ (sMove.locate 0 a false).1 = 0 ∧ sMove.sound a 8 = true ∧ sMove.sound (a / 64 * 64) 64 = true) ∧
    (let a := 2 ^ 52 + coreBase
     sTorus.blocked 0 a 8 = false ∧ a % 8 = 0 ∧ ¬(a / 2 ^ 52 = sTorus.node ∧ inReduction a = true) ∧
     sTorus.locate 0 a true = (0, .remote 1 coreBase) ∧
     ((sTorus.advance 0 1).send { dest := 1, op := opAtomic, len := 1, addr := coreBase, data := unitOf [3, 7, 128] }).2.isSome = true) :=
  ⟨sMove_issues, sMove_wf, by decide +kernel, by decide +kernel, by decide +kernel, by decide +kernel, by decide +kernel⟩

/-- The KV state with an OUT tensor in t1, a Q of one row in t2, the control block in s10 and the walk of one position in
s8, its validation beforehand or not, with segments or without. -/
theorem test_wit_attention : ∀ wide before seg : Bool,
    let s := if seg then (sKv.pokeN (coreBase + 0x1008) 8 3).pokeN (coreBase + 0x1018) 8 0x7000 else sKv
    let w : AttnWord := { out := 1, q := 2, acb := 10, walk := 8 }
    let s := if before then s.setCore 0 { s.core 0 with walked := some (0x6000, [(0x2000, 1), (0x2010, 1)]) } else s
    let p := s.attnPlan (s.core 0) tile0 w wide
    let s1 := s.advance 0 2
    let v := s1.validate 0 tile0 p.walk p.d
    let s3 := (if before then s1 else v.1).clearHeader tile0 p
    let r := s3.readWalk 0 p.walk p.d
    issues s 0 2 tile0 = true ∧ s.marks = [] ∧ s.csr = ready.csr ∧ tile0.Heeds [w.form.toNat, w.shape.toNat, w.srb.toNat, w.salt.toNat] ∧
    s.attnHeld 0 w wide = false ∧ attnOk w wide = true ∧ s.attnCode 0 tile0 w p = 0 ∧ s1.queryPos tile0 p.acb (p.m / p.acb.g) = (s1, [0], 0) ∧
    (if before then decide ((s.core 0).walked = some (p.walk, [(0x2000, 1), (0x2010, 1)]))
      else decide ((s.core 0).walked = none) && decide (v.2 = .ok [(0x2000, 1), (0x2010, 1)])) = true ∧ r.2.2.2 = 0 ∧
    (∀ q ∈ r.2.1.entries r.2.2.1, let e := s3.ent 0 q.2
      ∀ i < 16 * r.2.2.1.d * ((Fmt.ofCode e.fmtCode).getD .bf16).bits / 8, (s.locate 0 (e.frame + i) false).1 = 0) ∧
    p.acb.segment = seg ∧ (r.2.1.first, r.2.1.count) = (0, 1) ∧ (∀ b < 2, (s.locate 0 (p.acb.segtab + b) false).1 = 0) := by decide +kernel

theorem test_wit_merge : issues sKv 0 2 tile0 = true ∧ sKv.Clean ∧
    (let s := sKv
     let k := s.core 0
     let w : AttnWord := { out := 1, marea := 11, npart := 2 }
     let out := k.desc w.out.toNat
     let area := k.adr w.marea.toNat
     mrgOk w = true ∧ k.accHeld = false ∧ s.blocked 0 area 64 = false ∧ out.ok = true ∧ attnFmt out = true ∧ out.cols = 16 ∧ w.marea ≠ 0 ∧
     area % 64 = 0 ∧ s.attnTargets 0 tile0 w out out.rows out.cols (k.adr w.stat.toNat) (k.adr w.sig.toNat) = 0 ∧
     (∀ i < 64 + w.npart.toNat * partBytes out.rows out.cols, (s.locate 0 (area + i) false).1 = 0) ∧ w.send = 0 ∧ w.stat = 0 ∧ w.rnd = 0) :=
  ⟨by decide +kernel, sKv_clean, by decide +kernel⟩

/-- What the statements of matrix engines, EPI, ATOM and END ask besides: no accumulators held, no data of a move about to land
at the word, no operation of the tile on its way; and a tile that has one. -/
theorem test_wit_notHeld : (sMat.core 0).accHeld = false ∧ sMove.landsAt 0 0 (coreBase + 8192) true = false ∧
    sMove.blocked 0 (coreBase + 8192) 8 true = false ∧ sTorus.landsAt 0 0 (2 ^ 52 + coreBase) true = false ∧
    sTorus.blocked 0 (2 ^ 52 + coreBase) 8 true = false ∧ one.tileBusy 0 tile0 = false ∧
    (let s := with0 { core0 with ops := [{ op := opWrite, task := (0, 0), tile := 0 }] }
     issues s 0 1 tile0 = true ∧ s.tileBusy 0 tile0 = true) := by decide +kernel

/-! ### Witnesses: tasks, tiles and requests -/

/-- Core 0 at the end of a tile that holds a block for core memory and a signal, has a deferred area open, or has raised a
trapped flag. -/
def sEnd (k : Core) : State :=
  { with0 k with requests := [{ id := 0, phase := .running, ntask := 1, tasks := [{ phase := .dispatched }] }] }

theorem test_wit_end :
    (let k : Core := { core0 with held := [.write (.phys coreBase) [1, 2, 3, 4] false, .signal (.phys (coreBase + 8)) 1], status := 9 }
     let s := sEnd k
     issues s 0 1 tile0 = true ∧ ({} : ScalarWord).ok false false false false false = true ∧ k.deferred = none ∧ tile0.trap = false ∧
     k.merges = [] ∧ k.refs = [] ∧ k.touched = [] ∧ wfs s = true ∧ s.marks = [] ∧ s.csr = ready.csr ∧
     (∀ i < 4, inHbm (coreBase + i) = inHbm coreBase) ∧ (coreBase + 8) % 8 = 0 ∧ coreBase + 4 ≤ coreBase + 8 ∧ k.partials = [] ∧
     (s.task 0 0).isSome = true) ∧
    (let t : TileCtx := { trap := true }
     let s := sEnd { core0 with tile := some t, status := 1 }
     issues s 0 1 t = true ∧ t.trap = true ∧ (s.core 0).status % 8 ≠ 0 ∧ (s.core 0).deferred = none) ∧
    (let s := sEnd { core0 with deferred := some {} }
     issues s 0 1 tile0 = true ∧ (s.core 0).deferred.isSome = true) := by decide +kernel

/-- The words of a task descriptor (Table 2.3): one tile of a 1 x 1 x 1 grid, its parameters at 0x1000. -/
def taskWords (contract start : Nat) : List Word :=
  [0, BitVec.ofNat 64 (contract * 2 ^ 40 + 2 ^ 16 + 1), BitVec.ofNat 64 (2 ^ 16), BitVec.ofNat 64 (2 ^ 48 + 2 ^ 32 + 2 ^ 16), 0, 0x1000,
   BitVec.ofNat 64 start, 0]

/-- A request of two tasks of ward 0, whose descriptors stand at 0x2000 and 0x2040 of its memory. -/
def sTasks (phase : ReqPhase) (y : Task) (contract : Nat) (cell : Nat) : State :=
  { ready with
    cores := List.replicate 192 {}
    clusters := { ward := some 0 } :: List.replicate 23 {}
    csr := (ready.wr .sysCoreMap_MAP 0 1).csr
    wards := [{ id := 0, maps := [{ va := 0, log := 21, target := .hbm hbmBase }] }]
    requests := [{ id := 5, phase := phase, ntask := 2, tasks := [y, { addr := 0x2040 }] }]
    mem := memOf ((taskWords contract 0).mapIdx (fun i w => (hbmBase + 0x2000 + 8 * i, w.toNat)) ++ [(hbmBase + 0x3000, cell)]) }

theorem tasks_clean (phase : ReqPhase) (y : Task) (contract cell : Nat) : (sTasks phase y contract cell).Clean := by
  refine ⟨rfl, fun p hp => ?_⟩
  have h : (sTasks phase y contract cell).live p = (sTasks .waiting {} 0 0).live p := by simp only [State.live, State.rd, sTasks]
  exact h.trans ((by decide +kernel : ∀ p < 128, (sTasks .waiting {} 0 0).live p = true) p hp)

theorem test_wit_taskDispatch : ∀ contract ∈ [State.reset.rd .sysContract_LEVEL_MIN, 255],
    let s := sTasks .waiting { addr := 0x2000 } contract 0
    let y1 : Task := { addr := 0x2000, read := true, desc := wordsIn (s.vread 0 0x2000 64).2.1 }
    (s.req 5).map (fun x => (x.ward, x.tasks[0]?, s.serves x 0)) = some (0, some { addr := 0x2000 }, true) ∧
    (s.vread 0 0x2000 64).2.2 = 0 ∧ y1.startSig = 0 ∧ (s.taskCode y1 = 0 ↔ contract ≠ 255) := by decide +kernel

theorem test_wit_startSignal : ∀ cell ∈ [0, 1],
    let y : Task := { addr := 0x2000, read := true, desc := taskWords 1 0x3000 }
    let s := sTasks .running y 1 cell
    y.phase = .waiting ∧ y.startSig ≠ 0 ∧ s.waitPlace 0 y.startSig = (0, .phys (hbmBase + 0x3000)) ∧
    (y.startValue ≤ s.peekN (hbmBase + 0x3000) 8 ↔ cell = 1) := by decide +kernel

theorem test_wit_tilePull : ∀ p ∈ [([], 0), ([7, 3], 3)],
    let y : Task := { addr := 0x2000, read := true, phase := .dispatched, desc := taskWords 1 0, returned := p.1 }
    let s := sTasks .running y 1 0
    (s.req 5).map (fun x => (x.ward, x.tasks[0]?, s.serves x 0)) = some (0, some y, true) ∧ s.takesTile 0 0 = true ∧
    0 < s.cores.length ∧ y.pull.map (·.1) = some p.2 ∧ (p.1 = [] → (s.vread 0 y.table 1528).2.2 = 0) := by decide +kernel

/-- TILE_PULL on that state: tile 3 runs, and s59 holds its number. -/
theorem test_tilePull :
    (let y : Task := { addr := 0x2000, read := true, phase := .dispatched, desc := taskWords 1 0, returned := [7, 3] }
     let u := after (.tilePull 0 5 0) (sTasks .running y 1 0)
     ((u.core 0).phase, ((u.core 0).tile.map (·.idx)), (u.core 0).sreg 59, (u.task 5 0).map (·.returned)) = (.running, some 3, 3, some [7])) := by
  decide +kernel

/-- Task 0 of request 5: two parts of one output tile, done signal at 0x3000. -/
def splitTask : Task :=
  { read := true, phase := .dispatched, nextTile := 2, released := [0, 1], parts := [(0, [{ kp := 0 }]), (0, [{ kp := 1, core := 1 }])],
    desc := [0, 2 * 2 ^ 16, 2 * 2 ^ 16, 0, 0, 0, 0, 0x3000] }

theorem test_wit_splitParts :
    (let s := sTasks .running splitTask 0 0
     (s.req 5).map (fun x => x.tasks[0]?) = some (some splitTask) ∧ splitTask.phase = .dispatched ∧ (∃ p ∈ splitTask.parts, p.1 = 0) ∧
     (∀ i ∈ splitTask.tilesOf 0, i ∈ splitTask.released)) := by decide +kernel

/-- A part of an EPI without chain into one row of 16 FP32 elements, its sums 1 + n i / 32. -/
def epiPart (kp n : Nat) : Partial :=
  { kp := kp, kind := .epi { ext := true, slot := 7, out := 1, atile2 := 8 }
    job := { rows := 1, cols := 16, acc := (List.range 16).map fun i =>
      ({ w := (Num.decode .fp32 (0x3F800000 + n * i * 2 ^ 18)).toWide, terms := .other, int := false } : Acc) }
    tregs := (regs [] [(1, descOf (coreBase + 0x100) 1 16 4 64)]).t }

/-- Two such parts combined: the sum of the first elements is 2, of the second 2 + 6 / 32, and no other byte changes. -/
theorem test_wit_splitSums :
    (let ps := [epiPart 0 1, epiPart 1 5]
     let y : Task := { splitTask with parts := ps.map fun p => (0, [p]) }
     let s := sTasks .running y 0 0
     let w : EpiWord := { ext := true, slot := 7, out := 1, atile2 := 8 }
     let ctx := y.ctx 0 5 0 ((y.tilesOf 0).getLastD 0)
     let pl := epiPlan ((epiPart 1 5).seat ctx { tile := some ctx }) w
     let job := (joinJobs (ps.map (·.job))).1
     let h := (s.holdRect 0 pl.out pl.m 0 pl.ntot fun i col =>
       (roundWide pl.out.fmt {} w.sat (job.acc.getD (i * pl.ntot + col) {}).unchained.1).1).2
     wfs s = true ∧ y.partsOf 0 = ps.map (fun x => [x]) ∧ ps.getLast? = some (epiPart 1 5) ∧ (epiPart 1 5).core < s.cores.length ∧
     ctx.trap = false ∧ (epiPart 1 5).job.slotted = false ∧ w.rnd.toNat < 2 ∧ job.cols = pl.ntot ∧
     (match h with | [.write (.phys b) data false] => decide (b = coreBase + 0x100) && decide (data.length = 64) | _ => false) = true ∧
     (∀ i < 64, inHbm (coreBase + 0x100 + i) = inHbm (coreBase + 0x100)) ∧
     (after (.splitKCombine 5 0 0) s).peekN (coreBase + 0x100) 8 = 0x400C000040000000) := by decide +kernel

/-- Request 5 with every task ended, its queue pair and Gotar queue. -/
def sEnded (y : Task) (written : Nat) : State :=
  let s := sTasks .running y 0 0
  let q : Gotar := { qpn := 7, cqAddr := 0x4000, waiting := [{ tag := 3 }], written := written, cqHead := 0 }
  { (s.wr .hostPortStat_LINK 0 2) with
    requests := [{ id := 5, qpn := 7, tag := 9, phase := .running, ntask := 1, tasks := [y] }]
    host := { s.host with qps := [(7, { state := .rts })], queues := [(7, q)] } }

theorem test_wit_taskComplete : ∀ y ∈ [{ splitTask with parts := [] }, { splitTask with parts := [], desc := [0, 2 * 2 ^ 16, 2 * 2 ^ 16] }],
    let s := sTasks .running y 0 0
    (s.req 5).map (fun x => (x.ward, x.tasks[0]?)) = some (0, some y) ∧ y.phase = .dispatched ∧ y.allReleased = true ∧
    s.taskBusy 5 0 = false ∧ (y.doneSig = 0 ∨ (s.signalPlace 0 y.doneSig = (0, .phys (hbmBase + 0x3000)) ∧ (hbmBase + 0x3000) % 8 = 0)) ∧
    wfs s = true := by decide +kernel

theorem test_wit_requestComplete : ∀ y ∈ [({ phase := .complete } : Task), { phase := .faulted, fault := 5 }],
    let s := sEnded y 15
    (s.req 5).map (fun x => (x.phase, x.tasks, x.binding)) = some (.running, [y], none) ∧ (s.req 5).map (·.noCompletion) = some false ∧
    (y.phase = .complete ∨ y.phase = .faulted ∨ y.phase = .cancelled) ∧ s.reqBusy 5 = false ∧ (s.gotar 7).isSome = true := by
  decide +kernel

theorem test_wit_completionEntry : ∀ n ∈ [15, 16],
    let s := sEnded {} n
    let q := (s.gotar 7).getD {}
    (s.gotar 7).isSome = true ∧ q.heldEntries = [] ∧ q.rewrite = 0 ∧ q.waiting.map (·.notice) = [false] ∧ (s.qp 7).map (·.state) = some .rts ∧
    s.linkUp 0 = true ∧ (q.ec ≤ (q.written + 2 ^ 32 - q.cqHead % 2 ^ 32) % 2 ^ 32 ↔ n = 16) := by decide +kernel

/-! ### Witnesses: clusters and steps -/

theorem test_wit_plan : ∀ planned ∈ [[], [0]], ∀ ran ∈ [199999, 200000],
    let s : State := { ready with latch := { planned := planned, ran := ran }, dies := [{ claims := [(0, 3), (0, 4)] }, {}, {}, {}]
                                  csr := ((ready.wr .wrdPolicy_CL_MAX 0 4).wr .wrdPolicy_ACTIVE 0 1).csr }
    s.dies.length = 4 ∧ s.clusters.length = 24 ∧ s.sclk = true ∧ s.isReady = true ∧
    (∀ w < 512, (s.planLimits w).1 ≤ (s.planLimits w).2) ∧ (0 ∈ s.latch.planned ↔ planned = [0]) ∧ s.latch.old = [] ∧
    (s.latch.ran < s.rd .schPlan_PLAN_POINT 0 * s.latch.length / 256 ↔ ran = 199999) ∧
    s.wardActive 0 = true ∧ s.deleting 0 = false := by decide +kernel

/-- Cluster 0 at a point of a handover, its core 0 in a given state. -/
def sHand (h : Handover) (k : Core) : State :=
  { with0 k with clusters := { ward := some 0, handover := h } :: List.replicate 23 {} }

theorem test_wit_handover :
    (∀ since ∈ [0, 384000],
      let s : State := { sHand .planned core0 with latch := { since := since }, dies := [{ lead := 16000 }, {}, {}, {}] }
      s.cores.length = 192 ∧ s.clusters.length = 24 ∧ (s.cluster 0).handover = .planned ∧ (s.preemptDue 0 = true ↔ since ≠ 0)) ∧
    (∀ ops ∈ [[], [{}]],
      let s := sHand .stopping { core0 with phase := .stopping, ops := ops }
      clusterOf 0 = 0 ∧ (s.core 0).phase = .stopping ∧ ((s.core 0).ops = [] ↔ ops = [])) ∧
    (let s := sHand .stopping { phase := .saved }
     (s.cluster 0).handover = .stopping ∧ (s.cluster 0).boundaryPassed = false ∧ wfs s = true ∧
     (∀ c < 192, clusterOf c = 0 → ((s.core c).phase = .idle ∨ (s.core c).phase = .saved) ∧ (s.core c).ops = [])) ∧
    (let s : State := { sHand .stopping { core0 with phase := .stopped } with hbm := { frames := [(7, .save 0), (8, .save 0)] } }
     s.hasArea 0 = true ∧ 0 < s.cores.length ∧ wfs s = true ∧ (s.core 0).phase = .stopped ∧ (s.core 0).tile = some tile0) ∧
    (let m : SaveImage := { id := 4, core := core0, mem := [(8, 1), (0x1FFFFF, 2)] }
     let s : State := { with0 {} with images := [m], csr := (ready.wr .sysCoreMap_MAP 0 1).csr }
     (∀ x ∈ s.images, x.id = m.id → x = m) ∧ s.takesTile 0 m.ward = true ∧ (s.core 0).ops = [] ∧ Smap.wf 0 m.mem = true ∧
     (∀ p ∈ m.mem, p.1 < 2 ^ 21) ∧ wfs s = true) := by decide +kernel

/-- The step latch at a point of a step of 400 000 cycles. -/
def sStep (since : Nat) (declared : Bool) (sync : Nat) (edge : Bool := false) : State :=
  { ready with latch := { since := since, edge := edge, declared := declared, unseen := [0, 1] }, csr := (ready.wr .clkStepCfg_SYNC_EN 0 sync).csr }

theorem test_wit_steps : ∀ p ∈ [(0, true, 1), (350000, false, 1), (399999, false, 1), (49999, true, 1), (50000, false, 1), (349999, false, 1), (0, true, 0)],
    let s := sStep p.1 p.2.1 p.2.2
    let l := s.latch
    s.latchRuns = true ∧ Smap.wf 0 s.csr = true ∧ s.wards = [] ∧ 8 ≤ l.length ∧ (s.flag .clkStepCfg_SYNC_EN = true ↔ p.2.2 = 1) ∧
    l.usedWindow = false ∧ 0 ∈ l.unseen ∧ (s.cluster 0).handover = .none ∧ (s.cluster 0).clears = [] ∧
    (l.since = 0 ∧ l.declared = true ∨ (0 < l.since ∧ l.length - l.length / 8 ≤ l.since ∧ l.since < l.length) ∨
      (0 < l.since ∧ l.declared = true ∧ l.since < l.length / 8) ∨
      (l.length / 8 ≤ l.since ∧ l.since < l.length - l.length / 8)) := by decide +kernel

/-- R386: at the count's end, before and after an edge in that cycle; the boundary that follows an edge has used its window. -/
theorem test_step_coincident :
    (∀ edge ∈ [false, true], (sStep 400000 true 1 edge).latch.since = (sStep 400000 true 1 edge).latch.length) ∧
    (match execStepSyncEdge (sStep 400000 true 1) with
     | .next u => u.latch.edge && decide (u.rd .clkStepSyncStat_COINCIDENT = 1) &&
       (match execStepBoundary u with | .next v => decide (v.latch.since = 0) && v.latch.usedWindow | _ => false)
     | _ => false) = true := by decide +kernel

/-- R361: a policy changed in the plan's own cycle counts at the next plan; a tick later it counts. -/
theorem test_plan_limits :
    let s := ((ready.wr .wrdPolicy_CL_MAX 0 4).keepLimits 0).wr .wrdPolicy_CL_MAX 0 6
    s.planLimits 0 = (0, 4) ∧ (match tick s with | .next u => decide (u.planLimits 0 = (0, 6)) | _ => false) = true := by decide +kernel

/-! ### Witnesses: requests and answers of other devices -/

/-- A device whose ward 0 maps a page that may be read and written at 0, and one that may be neither at 2 MiB. -/
def sWard : State :=
  { ready with
    wards := [{ id := 0, maps := [{ va := 0, log := 21, target := .hbm hbmBase },
      { va := 2 ^ 21, log := 21, r := false, w := false, target := .hbm (hbmBase + 2 ^ 21) }] }] }

theorem sWard_clean : sWard.Clean := clean_of rfl rfl

theorem test_wit_requests : wfs sWard = true ∧ sWard.fclk = true ∧
    (let p : Packet := { op := opRead, len := 2, addr := 64 }
     p.dest = sWard.node ∧ sWard.targetRange p (64 * p.len) false = (0, [(hbmBase + 64, 128)]) ∧ 0 < p.len) ∧
    (let p : Packet := { op := opRead, len := 2, addr := 2 ^ 21 - 64 }
     sWard.targetRange p (64 * p.len) false = (cProtection, [(hbmBase + 2 ^ 21 - 64, 64), (0, 64)])) ∧
    (let p : Packet := { op := opWrite, addr := 2 ^ 21 }
     sWard.targetRange p 0 false = (cProtection, [(0, 0)]) ∧ sWard.targetRange p 0 true = (cProtection, [(0, 0)]) ∧ cProtection ≠ 0) ∧
    (let p : Packet := { op := opWrite, addr := 64, len := 1, data := List.replicate 64 3 }
     sWard.targetRange p 64 true = (0, [(hbmBase + 64, 64)]) ∧ p.pz = false ∧
     (∀ i < p.data.length, inHbm (hbmBase + 64 + i) = inHbm (hbmBase + 64))) ∧
    (let p : Packet := { op := opWriteSignal, len := 1, data := unitOf [0x80, 5] }
     p.data.length = 64 ∧ wordAt p.data 0 % 8 = 0 ∧ sWard.target p (wordAt p.data 0) true = (0, false, hbmBase + 0x80)) ∧
    (∀ aop < 4,
     let p : Packet := { op := opAtomic, len := 1, addr := 0x80, data := unitOf [aop, 5, 0] }
     p.addr % 8 = 0 ∧ inReduction p.addr = false ∧ sWard.target p p.addr false = (0, false, hbmBase + 0x80) ∧
     sWard.target p p.addr true = (0, false, hbmBase + 0x80) ∧ wordAt p.data 0 < 4) := by decide +kernel

/-- Core 0 with one operation on its way to node 3, number 17. -/
def sOps (o : RemoteOp) : State := with0 { core0 with ops := [{ o with pseq := 17, node := 3 }] }

theorem test_wit_answers : ∀ o ∈ [({ op := opRead, dst := .phys coreBase, len := 100 } : RemoteOp), { op := opAtomic, rd := 63 }],
    let s := sOps o
    let p : Packet := { dest := 0, src := 3, addr := 17, len := 2, data := List.replicate 128 9 }
    s.fclk = true ∧ p.dest = s.node ∧ s.coreOf p = some 0 ∧ (∀ o ∈ (s.core 0).ops, o.op ≠ opPending) ∧ s.coreOp 0 p = { o with pseq := 17, node := 3 } ∧
    (s.core 0).tile = some tile0 ∧ (tile0.req, tile0.task) = (s.coreOp 0 p).task ∧ wfs s = true ∧
    (o.op = opRead → o.via = .phys 0 ∧ o.len ≤ 64 * p.len ∧ o.len ≤ p.data.length ∧ p.pz = false ∧
      ∀ i < o.len, inHbm (coreBase + i) = inHbm coreBase) := by decide +kernel

/-- What a walk's validation answers, as a number: 0 success, 1 wait, 2 fault. -/
def endKind : WalkEnd → Nat | .ok _ => 0 | .wait => 1 | .fault _ _ => 2

/-- The KV state with a control block for the walk, its first entry's references and state as given. -/
def sWalk (refs state : Nat) : State :=
  let s := sKv
  let e := s.ent 0 0x2000
  s.setEnt 0 0x2000 { e with refs := refs, state := state }

theorem test_wit_walks : ∀ p ∈ [(0, 1, 0), (4095, 1, 1), (0, 0, 2)],
    let s := sWalk p.1 p.2.1
    let k := s.core 0
    let w : AttnWord := { out := 1, q := 2, acb := 10, walk := 8 }
    let wide := s.isWideAttn 0 tile0
    let a := s.attnPlan k tile0 w wide
    s.issuing 0 = some tile0 ∧ 0 < s.cores.length ∧ k.walked = none ∧ attnOk w wide = true ∧ s.attnCode 0 tile0 w a = 0 ∧
    s.damage (a.area % 2 ^ 52) 64 = 0 ∧ s.attnCode 0 tile0 { w with acb := 5 } (s.attnPlan k tile0 { w with acb := 5 } wide) ≠ 0 ∧
    endKind (s.validate 0 tile0 a.walk a.d).2 = p.2.2 ∧
    (p.2.2 = 0 → let r := s.readWalk 0 a.walk a.d
      r.2.2.2 = 0 ∧ ∀ q ∈ r.2.1.entries r.2.2.1, let e := s.ent 0 q.2
        s.entCode 0 q.2 = 0 ∧ e.odd r.2.2.1 = false ∧ r.2.1.good q.1 e = true ∧ e.refs < 4095) := by decide +kernel

theorem test_wit_absentPages :
    (∀ n ∈ [0, 1],
      let x : Request := { id := 5, phase := .absent, absents := [{}], nrecomp := n, ntask := 1, tasks := [{ phase := .faulted, fault := cPageAbsent }] }
      let s : State := { ready with requests := [x], csr := (ready.wr .kvpWardCfg_RECOMP_EN 0 1).csr }
      s.req 5 = some x ∧ x.reported < x.absents.length ∧ Smap.wf 0 s.csr = true ∧ s.mayRecompute x = decide (n = 1) ∧ x.ntask ≤ x.tasks.length) ∧
    (let z : Task := { phase := .faulted, fault := cPageAbsent }
     let x : Request := { id := 5, phase := .recomputing, nrecomp := 1, ntask := 1, tasks := [z, { phase := .complete }] }
     let s : State := { ready with requests := [x] }
     s.req 5 = some x ∧ (∀ y ∈ x.tasks.drop x.ntask, y.phase = .complete) ∧ s.exporter.bindings = [] ∧ 0 < x.ntask ∧
     x.tasks[0]? = some z ∧ z.phase = .faulted ∧ z.fault = cPageAbsent) := by decide +kernel

/-! ### Witnesses: links -/

/-- The ready device with every die-to-die link up or down, and one port's state. -/
def sLinks (up : Bool) (port link : Nat) (downs : List Nat) (enable : Nat) : State :=
  let s := (ready.wr .hostPortStat_LINK port link).wr .expPortCfg_ENABLE (port - 1) enable
  { s with boot := { s.boot with dieLinksUp := List.replicate 8 up }
           host := { s.host with downs := if downs.isEmpty then [] else [(port, downs)], badWindows := [(port, 9)] } }

theorem test_wit_dieLinks : (sLinks true 0 2 [] 0).dieLinkUp 7 = true ∧ (sLinks true 0 2 [] 0).isReady = true ∧ 7 ∈ dieRoute 0 5 ∧
    ((List.range 6).map fun b => dieRoute 4 b) = [[4], [5], [1, 5], [3, 4], [], [4, 3, 7]] ∧
    (let s := sLinks false 0 2 [] 0; s.isReady = true ∧ s.dieLinkUp 7 = false ∧ wfs s = true) := by decide +kernel

theorem test_wit_ethernet :
    (∀ p ∈ [(2, [], 1), (2, [0, 0, 0], 1), (1, [0], 1), (1, [], 1), (0, [], 0)],
      let s := sLinks true 4 p.1 p.2.1 p.2.2
      let recent := (Smap.get [] s.host.downs 4).filter fun x => decide (s.raw < x + 10000000000)
      wfs s = true ∧ s.fclk = true ∧ s.rd .hostPortStat_LINK 4 = p.1 ∧ recent = p.2.1 ∧ Smap.get [] s.host.downs 4 = p.2.1 ∧
      s.flag .expPortCfg_ENABLE 3 = decide (p.2.2 = 1) ∧ s.managed = true ∧ Smap.get 0 s.host.badWindows 4 = 9) ∧
    ∀ l ∈ [1, 2], (sLinks true 0 l [] 0).rd .hostPortStat_LINK 0 = l := by decide +kernel

theorem test_wit_packetHeader :
    let p : Packet := { dest := 4095, src := 1, op := 31, ward := 511, dir := 7, pseq := 65535, len := 127, pz := true, addr := 2 ^ 52 - 1 }
    p.dest < 2 ^ 12 ∧ p.src < 2 ^ 12 ∧ p.op < 2 ^ 5 ∧ p.ward < 2 ^ 9 ∧ p.dir < 2 ^ 3 ∧ p.pseq < 2 ^ 16 ∧ p.len < 2 ^ 7 ∧ p.addr < 2 ^ 52 := by
  decide

/-- Hinge port 1 in a state, with what it has counted. -/
def sHinge (state : Nat) (h : HingePort) : State :=
  let s := ((ready.wr .hngPortStat_STATE 1 state).wr .hngRetireCfg_LANE_LIMIT 0 100).wr .hngRetireCfg_RETRY_LIMIT 0 8
  { s with hinge := { s.hinge with ports := [{}, h, {}, {}, {}, {}] } }

theorem test_wit_flits :
    (let s := sHinge 2 { expect := 5, retryBuf := [(9, {}), (10, { vc := 2 })] }
     let f : Flit := { seq := 5, payload := List.replicate 56 0, vc := 1, errors := [(3, 1), (127, 2)] }
     let g : Flit := { f with crc := goodCrc f }
     let late : Flit := { g with seq := 6, crc := goodCrc { g with seq := 6 } }
     1 < s.hinge.ports.length ∧ s.fclk = true ∧ s.rd .hngPortStat_STATE 1 = 2 ∧ (∀ half < 2, (f.errors.filter fun e => decide (e.1 / 64 = half)).length ≤ 1) ∧
     (∀ e ∈ f.errors, e.1 < 128) ∧ fecLanes f = [3, 7] ∧ receivedFlit f = { f with errors := [] } ∧ f.crc ≠ goodCrc f ∧
     late.crc = goodCrc late ∧ late.typ = 0 ∧ late.vc < 6 ∧ late.seq ≠ 5 ∧ receivedFlit late = { late with errors := [] } ∧
     receivedFlit g = { g with errors := [] } ∧ g.crc = goodCrc g ∧ g.typ = 0 ∧ g.vc < 6 ∧
     g.seq = ((s.port 1).corrected (fecLanes g)).expect ∧ ((s.port 1).corrected (fecLanes g)).outPackets = [] ∧
     (parsePackets 64 (Smap.get [] (s.port 1).partial_ g.vc ++ g.payload)).1 = []) ∧
    ∀ n ∈ [0, 16],
      let s := sHinge 2 { retryBuf := [(9, {}), (10, { vc := 2 })], retrySeq := 10, badRetry := n }
      let q : CtlFlit := { port := 1 }
      let x := (s.port 1).heard q.ack q.crvc q.crn
      wfs s = true ∧ (x.retryBuf.findIdx? fun y => y.1 = 10) = some 1 ∧ x.outPackets = [] ∧ x.retrySeq = 10 ∧ x.badRetry = n ∧ x.downs = [] := by
  decide +kernel

/-- Packets of one VC lie back to back in a flit, and a packet goes on in the next one (R261). -/
theorem test_flit_packing :
    let p : Packet := { dest := 1, op := opWrite, len := 3, data := List.replicate 192 7 }
    let s := (sHinge 2 {}).toPort 1 0 p {}
    let t := ({ (sHinge 2 { outPackets := [{ p := p }, { p := { p with pseq := 1 } }] }) with pending := [] } : State).pump 1
    (s.port 1).outFlits.length = 1 ∧ ((s.port 1).outFlits.map (·.payload.drop 208)) = [List.replicate 28 0] ∧
    (t.port 1).outFlits.length = 2 ∧ (t.port 1).outPackets = [] ∧ (t.port 1).sent.map (·.1) = [0, 1] ∧
    (let r := (t.port 1).outFlits.map (·.payload)
     let q := parsePackets 64 (r.getD 0 [])
     q.1 = [p] ∧ q.2.length = 28 ∧ parsePackets 64 (q.2 ++ r.getD 1 []) = ([{ p with pseq := 1 }], [])) := by
  decide +kernel

/-- A flow with twice the quantum gets twice the share (R270, R294). -/
theorem test_drr_shares :
    let flows := [(0, 256, 256), (2, 256, 512)]
    let run := (List.range 6).foldl (fun (a : Drr × List Nat) _ =>
      match a.1.pick [0, 2] flows with
      | some (k, d) => (d, a.2 ++ [k])
      | none => a) ({}, [])
    run.2 = [2, 2, 0, 2, 2, 0] := by decide

theorem test_wit_hingePorts :
    (∀ p ∈ [(2, ({} : HingePort)), (2, { downs := [0, 0, 0] }), (2, { lanes := [401, 0, 0, 0, 0, 0, 0, 0], badLane := 9 }),
        (2, { retries := 9, retried := 9 }), (3, {}), (1, {}), (1, { training := true })],
      let s := sHinge p.1 p.2
      let h := s.port 1
      1 < s.hinge.ports.length ∧ wfs s = true ∧ s.fclk = true ∧ h = p.2 ∧ s.rd .hngPortStat_STATE 1 = p.1 ∧ h.sent = [] ∧ h.outPackets = [] ∧
      (h.downs.filter fun x => decide (s.raw < x + 10000000000)) = h.downs ∧
      (h.badLane = 9 → 4 * s.rd .hngRetireCfg_LANE_LIMIT (axisDie 0) < h.lanes.foldl max 0) ∧
      (h.retried = 9 → s.rd .hngRetireCfg_RETRY_LIMIT (axisDie 0) < h.retries) ∧
      (h.badLane = 0 → h.lanes.foldl max 0 ≤ 4 * s.rd .hngRetireCfg_LANE_LIMIT (axisDie 0))) ∧
    (let s := (sHinge 2 {}).wr .hngPortStat_STATE (peerPort 1) 2
     let a : Announcement := { node := 9, port := 3, usable := false }
     a.node ≠ s.node ∧ (decide ((a.node, a.port) ∈ s.hinge.linkBad) = a.usable) ∧ peerPort 1 < s.hinge.ports.length ∧
     s.rd .hngPortStat_STATE (peerPort 1) = 2 ∧ (decide ((a.node, a.port) ∈ s.hinge.linkBad) = !({ a with usable := true } : Announcement).usable)) ∧
    (let p : Packet := { dest := 1, op := opRead, len := 1 }
     let s : State := { sTorus with hinge := { sTorus.hinge with heldRoutes := [(1, [{ p := p }])] } }
     Smap.get [] s.hinge.heldRoutes 1 = [{ p := p }] ∧ (∀ f ∈ s.hinge.flying, f.dest ≠ 1) ∧ (s.route p none).isSome = true) := by decide +kernel

/-- Port 1 is the upstream of a device whose neighbour there has a smaller root. -/
def sTime (ever : Bool) (tx : Nat) : State :=
  let s := (((ready.wr .hngTorusCfg_VALID 0 1).wr .hngTorusCfg_NODE 0 5).wr .hngTorusCfg_LX 0 7).wr .hngPortStat_STATE 1 2
  { s with hinge := { s.hinge with ports := [{}, { peerHops := 0, lastTx := tx }, {}, {}, {}, {}],
                                   everLocked := ever, following := some 1 } }

theorem test_wit_torusTime : ∀ ever : Bool, ∀ tx ∈ [0, 5], ∀ rx ∈ [0, 9],
    let s := sTime ever tx
    let f : TimeFlit := { prevRx := rx }
    1 < s.hinge.ports.length ∧ wfs s = true ∧ s.fclk = true ∧ s.rd .hngPortStat_STATE 1 = 2 ∧ f.crcOk = true ∧ s.hinge.everLocked = ever ∧
    s.hinge.following = some 1 ∧ (s.port 1).lastTx = tx ∧ s.raw + 7 < 2 ^ 64 ∧
    (s.setPort 1 { s.port 1 with lastRx := s.time, peerRoot := f.root, peerHops := f.hops }).upstream = some 1 := by
  decide +kernel

/-! ### Witnesses: queue pairs, export and the host -/

/-- Queue pair 7 of port 1 with one message unacknowledged. -/
def sQp (retries : Nat) (wait : Bool) (cnp : Option Nat) : State :=
  let s := ((ready.wr .hostPortStat_LINK 1 2).wr .hostEcnCfg_ECN_EN 1 1).wr .hostEcnCfg_GSHIFT 1 4
  { s with host := { s.host with qps := [(7, { state := .rts, port := 1, unacked := [{ kind := 0 }], retries := retries, rnrWait := wait, lastCnp := cnp })] } }

theorem test_wit_queuePairs : ∀ p ∈ [(0, true, none), (6, false, some 0), (7, false, none)],
    let s := sQp p.1 p.2.1 p.2.2
    let q := (s.qp 7).getD {}
    (s.qp 7).isSome = true ∧ q.state = .rts ∧ q.onWay ≠ [] ∧ s.sends q.port = true ∧ q.retries = p.1 ∧ q.rnrWait = p.2.1 ∧ q.lastCnp = p.2.2 ∧
    s.linkUp q.port = true ∧ s.ecn q.port = true ∧ q.port < 5 ∧ s.raw < 0 + 50000 ∧ s.oldestBinding 7 = none := by decide +kernel

/-- The KV state with a binding of its page table whose page 0 is being exported, or which waits for a grant. -/
def sBind (x : Binding) : State :=
  let x := { x with table := 0x1000, targetEnd := 2 }
  let s := sWalk 0 pExporting
  let m : RdmaOut := { kind := 1, tag := 3, binding := 0, page := 0, entry := 2 }
  { s with exporter := { s.exporter with bindings := [x] }, host := { s.host with qps := [(9, { state := .rts, unacked := [m] })] } }

theorem test_wit_exportEvents : ∀ x ∈ [({ starved := true } : Binding), { taken := [0] }, { ends := [2] }],
    let s := sBind x
    let y := (s.binding 0).getD {}
    wfs s = true ∧ (s.binding 0).isSome = true ∧ y.live = true ∧ y.starved = x.starved ∧ y.taken = x.taken ∧ y.ends = x.ends ∧
    (s.ent y.ward ((s.tabOf y).entries + 16 * 0)).state = pExporting ∧ 0 + 1 = (s.tabOf y).layers ∧ y.unbindEnd = 0 ∧
    (let a := (s.tabOf y).entries + 16 * 0; (s.ent y.ward a).dmg = false ∧ s.entCode y.ward a = 0) ∧
    ((s.host.qps.find? fun p => p.2.onWay.any fun m => decide (m.tag = 3) && decide (m.binding = 0) && decide (m.page = 0)).map (·.1)) = some 9 := by
  decide +kernel

/-- Queue pair 64 belongs to partner 3, whose inbox slot is 5. -/
def sGrant (state : Nat) : State :=
  let s := (((((ready.wr .hostPortStat_LINK 1 2).wr .expPartnerCfg_ENABLE 3 1).wr .expPartnerCfg_QP_BASE 3 64).wr .expPartnerCfg_PORT_MASK 3 1).wr
    .expPartnerCfg_INBOX_SLOT 3 5).wr .expPartnerStat_STATE 3 state
  { s with host := { s.host with qps := [(64, { state := .rts, port := 1 })] } }

theorem test_wit_grants : ∀ state ∈ [1, 2],
    let s := sGrant state
    wfs s = true ∧ (s.qp 64).map (fun q => (q.state, q.port)) = some (.rts, 1) ∧ s.linkUp 1 = true ∧ s.slotOwner 64 0 5 = some 3 ∧
    s.partnerActive 3 = decide (state = 1) ∧ Smap.get 0 s.exporter.consumed 3 = 0 ∧ s.exporter.bindings = [] ∧
    s.rd .expPartnerStat_BAD_GRANTS 3 < 2 ^ 16 := by decide +kernel

/-- Queue pairs 0 and 7 of the host port, with keys; queue 7 is ward 0's, its first entry at 0x4000. -/
def sHost (tail op : Nat) : State :=
  let s := (sWard.wr .hostPortStat_LINK 0 2).wr .wrdPolicy_ACTIVE 0 1
  let g : Gotar := { qpn := 7, ward := 0, sqBase := 0x4000, tail := tail, cqHead := 3, written := 5 }
  { s with host := { s.host with qps := [(0, { state := .rts, key := 4, gid := 9 }), (7, { state := .rts, key := 5 })], queues := [(0, { es := 2048 }), (7, g)] }
           mem := memOf [(hbmBase + 0x4000, op * 2 ^ 56 + 100 * 2 ^ 32 + 77), (hbmBase + 0x4008, 0x2000), (hbmBase + 0x4010, 2 ^ 48)] }

theorem sHost_clean (tail op : Nat) : (sHost tail op).Clean := by
  refine ⟨rfl, fun p hp => ?_⟩
  have h : (sHost tail op).live p = (sHost 0 0).live p := by simp only [State.live, State.rd, sHost]
  exact h.trans ((by decide +kernel : ∀ p < 128, (sHost 0 0).live p = true) p hp)

theorem test_wit_inbound :
    let s := sHost 0 0
    wfs s = true ∧ s.linkUp 0 = true ∧ s.sends 0 = true ∧ s.hostServes = true ∧ (s.qp 7).map (fun q => (q.state, q.port, q.key, q.holder)) = some (.rts, 0, 5, 0) ∧
    (s.qp 0).map (fun q => (q.state, q.port, q.key, q.gid)) = some (.rts, 0, 4, 9) ∧
    (5 : BitVec 32).toNat % 2 ^ 28 = 5 ∧ (5 : BitVec 32).toNat / 2 ^ 28 = 0 ∧ (0x30000004 : BitVec 32).toNat / 2 ^ 28 = 3 ∧
    (∀ i < 4, s.locate 0 (s.node * 2 ^ 52 + 0x5000 + i) true = (0, .phys (hbmBase + 0x5000 + i)) ∧
      s.locate 0 (s.node * 2 ^ 52 + 0x5000 + i) false = (0, .phys (hbmBase + 0x5000 + i)) ∧
      inHbm (hbmBase + 0x5000 + i) = inHbm (hbmBase + 0x5000)) ∧
    Smap.wf 0 s.host.mgmtRing = true ∧ (6 : BitVec 32).toNat % 2 ^ 28 ≠ 5 ∧ s.qpPartner 7 = none := by decide +kernel

theorem test_wit_doorbells : ∀ op ∈ [0, 1, 4],
    let s := sHost 1 op
    let g := (s.gotar 7).getD {}
    (s.gotar 7).isSome = true ∧ s.deleting g.ward = false ∧ (s.qp 7).map (·.state) = some .rts ∧ s.hostRts 7 = true ∧
    g.es < ahead 17 g.taken ∧ ahead 16 g.taken ≤ g.es ∧ ahead g.tail g.taken ≤ ahead 16 g.taken ∧
    ahead g.written g.cqHead < ahead 6 g.cqHead ∧ ahead 5 g.cqHead ≤ ahead g.written g.cqHead ∧ g.taken ≠ g.tail ∧
    (let r := s.vread g.ward (s.node * 2 ^ 52 + g.sqBase + g.taken % g.es * 128) 128
     let e : SubEntry := { index := g.taken, began := g.began g.taken s.raw, ws := wordsIn r.2.1 }
     r.2.2 = 0 ∧ e.op = op ∧ e.reserved = false ∧ (op = 1 → e.runCode = 0 ∧ e.word 5 = 0)) := by decide +kernel

theorem test_wit_runRefused :
    let s := sHost 1 1
    let s := { s with mem := memOf [(hbmBase + 0x4000, 2 ^ 56)] }
    let r := s.vread 0 0x4000 128
    let e : SubEntry := { ws := wordsIn r.2.1 }
    r.2.2 = 0 ∧ e.op = 1 ∧ e.runCode ≠ 0 := by decide +kernel

/-- A management command in hand. -/
def sMgmt (code stage : Nat) (params : List Nat) : State :=
  let s := sHost 0 0
  { s with host := { s.host with mgmt := some { code := code, stage := stage, params := params.map (BitVec.ofNat 64) } } }

theorem test_wit_management :
    (∀ p ∈ [([8, 0, ownerHolder, 5, 0, 0, 0, 0, 0, 2, 0, 10], 0), ([7, 0, ownerHolder, 5, 0, 0, 0, 0, 0, 2, 0, 10], cDescriptor)],
      let s := sMgmt 0x01 0 p.1
      wfs s = true ∧ (s.mgmtNew 0x01).map s.qpCode = some p.2 ∧ Smap.wf none (s.host.qps.map fun p => (p.1, some p.2)) = true) ∧
    (let s := sMgmt 0x02 0 [7]
     (s.mgmtNew 0x02).map (·.param 0) = some 7 ∧ (s.qp 7).isSome = true) ∧
    (let s := sMgmt 0x03 0 [8, 0x4000, 16, 0, 0, 16]
     let s : State := { s with host := { s.host with qps := s.host.qps ++ [(8, { state := .rts })] } }
     (s.mgmtNew 0x03).map (·.param 0) = some 8 ∧ (s.qp 8).map (fun q => (q.port, s.wardOk q.holder, s.ringMapped q.holder 0x4000 16)) = some (0, true, true) ∧
     s.gotar 8 = none ∧ ringCount 16 = true) ∧
    (let s := sMgmt 0x04 0 [7]
     (s.mgmtNew 0x04).map (·.param 0) = some 7 ∧ (s.gotar 7).isSome = true) ∧
    (∀ p ∈ [(0x30, 0), (0x43, 0), (0x44, 0), (0x45, 0)], ((sMgmt p.1 p.2 [ownerHolder]).mgmtNew p.1).isSome = true) ∧
    ((sMgmt 0x44 2 []).mgmtIs 0x44).map (·.stage) = some 2 ∧ ((sMgmt 0 0 []).qp 0).map (·.state) = some .rts ∧
    (let off := Reg.sysContract.offset 0 0
     let s := sMgmt 0x20 0 [csrBase + off, 0, 0]
     region (csrBase + off) = .csr off ∧ off % 8 = 0 ∧ (s.csrWrite .signed off 0 0).1.isReady = true ∧
     torusWaits off s (s.csrWrite .signed off 0 0).1 = false ∧ (s.mgmtNew 0x20).isSome = true) := by decide +kernel

/-- Whether a mapping or a placement succeeds. -/
def ok? {ε α : Type} : Except ε α → Bool | .ok _ => true | .error _ => false

theorem test_wit_memory :
    (∀ p ∈ [(2 ^ 22, true), (0, false)],
      let s := sMgmt 0x10 0 [0, p.1, 2 ^ 21, 2 ^ 21, 3, 0]
      wfs s = true ∧ (s.mgmtNew 0x10).isSome = true ∧ s.wardOk 0 = true ∧ ok? (s.mapRange 0 p.1 (2 ^ 21) (2 ^ 21) 3 {}) = p.2 ∧ (s.ward 0).isSome = true) ∧
    (let s := sMgmt 0x12 0 [0, 0, 2 ^ 21]
     (s.mgmtNew 0x12).isSome = true ∧ (s.rangeMaps 0 0 (2 ^ 21)).isSome = true ∧ (s.qp 0).map (·.state) = some .rts) ∧
    (let c : Cutover := { ward := 0, unmap := true, maps := [{ va := 0, log := 21, target := .hbm hbmBase }] }
     let s := sMgmt 0x12 0 []
     let s := { s with host := { s.host with cutovers := [(c, {})] } }
     (s.host.cutovers.find? fun c => decide (c.1.ward = 0)) = some (c, {}) ∧ s.rangeBusy c.maps = false ∧ Smap.wf .free s.hbm.frames = true) ∧
    (let s := sMgmt 0x14 0 [1, 2 ^ 22, 7, 0]
     (s.mgmtNew 0x14).isSome = true ∧ s.flag .memLend_ENABLE 1 = false ∧ ok? (s.placePages (.lend 1) 1 2 {}) = true) ∧
    (let s := (sMgmt 0x15 0 [1]).wr .memLend_ENABLE 1 1
     (s.mgmtNew 0x15).isSome = true ∧ s.flag .memLend_ENABLE 1 = true) ∧
    (let s := (((sMgmt 0x16 0 [0, 2 ^ 22, 1, 3, 2 ^ 21, 3]).wr .hngTorusCfg_VALID 0 1).wr .hngTorusCfg_LX 0 1).wr .hngPortStat_STATE 0 2
     let s := s.wr .hngPortStat_STATE 1 2
     (s.mgmtNew 0x16).isSome = true ∧ s.wardOk 0 = true ∧ rangeOk (2 ^ 22) (2 ^ 21) 21 = true ∧
     (s.ward 0).map (fun x => x.meets (2 ^ 22) (2 ^ 21)) = some false ∧ s.isNeighbour 1 = true ∧ s.reachable 1 = true ∧
     s.overQuota 0 1 = 0 ∧ ((s.route { dest := 1 } none).map fun p => decide (p < s.hinge.ports.length)) = some true) ∧
    (let s := sMgmt 0x16 1 [0, 2 ^ 22, 1, 3, 2 ^ 21, 3]
     (s.mgmtIs 0x16).map (·.stage) = some 1 ∧ (s.ward 0).isSome = true ∧ s.isReady = true) := by decide +kernel

theorem test_wit_load :
    let bs : List Byte := List.replicate 4096 1
    let y : Mapping := { va := 0, log := 12, w := false, target := .hbm hbmBase }
    let s := sMgmt 0x11 1 [0, 0, 4096]
    let s := { s with wards := [{ id := 0, maps := [y] }]
                      host := { s.host with qps := [(0, { state := .rts, unacked := [{ kind := 2, len := 4096 }] })] } }
    s.host.mgmt.map (fun m => (m.stage, m.code)) = some (1, 0x11) ∧ s.hostRts 0 = true ∧ wfs s = true ∧
    ((((s.qp 0).map (·.onWay)).getD []).find? fun x => decide (x.kind = 2)).map (·.len) = some 4096 ∧
    (s.ward 0).map (·.maps) = some [y] ∧ 2 ^ y.log = 4096 ∧ bs.length = 4096 := by decide +kernel

theorem test_wit_wards :
    (let s := sMgmt 0x40 0 [3, 0, 0]
     wfs s = true ∧ (s.mgmtIs 0x40).isSome = true ∧ s.wardActive 3 = false ∧ s.ward 3 = none) ∧
    (let v := 1 * 2 ^ 84 + 2 * 2 ^ 79 + 200 * 2 ^ 71 + 100 * 2 ^ 63
     let s := sMgmt 0x40 0 [3, v % 2 ^ 64, v / 2 ^ 64]
     (s.mgmtIs 0x40).map (fun m => m.param 1 + m.param 2 * 2 ^ 64) = some v ∧ s.policyCode 3 v (s.fixedOf 3 v true).1 = 0 ∧
     ok? (s.placePages (.save 3) 1 32 {}) = true) ∧
    (let v := 1 * 2 ^ 84 + 2 * 2 ^ 79 + 200 * 2 ^ 71 + 100 * 2 ^ 63
     let s := sMgmt 0x42 0 [0, v % 2 ^ 64, v / 2 ^ 64]
     (s.mgmtIs 0x42).isSome = true ∧ s.wardActive 0 = true ∧ s.deleting 0 = false ∧ s.policyCode 0 v (s.fixedOf 0 v false).1 = 0 ∧
     ok? (s.placePages (.save 0) 1 (32 - s.saveFrames 0) {}) = true) ∧
    (let s := sMgmt 0x41 0 [0]
     let s := { s with host := { s.host with qps := [(0, { holder := ownerHolder })] } }
     (s.mgmtIs 0x41).map (·.stage) = some 0 ∧ s.wardActive 0 = true ∧ (s.ward 0).map (·.deleting) = some false ∧ s.coll.groups = [] ∧
     (∀ q ∈ s.host.qps, q.2.holder ≠ 0) ∧ ∀ p < 256, s.flag .expPartnerCfg_ENABLE p = true → s.rd .expPartnerCfg_WARD p ≠ 0) := by
  decide +kernel

/-! ### Witnesses: collectives -/

/-- The words of an operation descriptor (Table 11.2): kind, tag 9 of group 0, FP32 copies to a BF16 destination, `contribs`
copies of n elements; SRC at 0x8000 and DST at 0x10000 of the ward. -/
def colDesc (kind contribs n : Nat) (sig : Nat) : List Word :=
  let fmts := if kind = 3 then 0 else if kind = 2 then 3 * 2 ^ 55 + 3 * 2 ^ 51 else 4 * 2 ^ 55 + 3 * 2 ^ 51
  [0x8000, 0x10000, BitVec.ofNat 64 (kind * 2 ^ 60 + fmts + 9 * 2 ^ 29 + (contribs - 1) * 2 ^ 17),
   BitVec.ofNat 64 (if kind = 3 then 0 else (n - 1) * 2 ^ 29), 0, BitVec.ofNat 64 sig, 0, 0]

/-- A group of ward 0 on X, active. -/
def ringX : Group := { id := 0, ward := 0, w0 := 2 ^ 55, phase := .active }

/-- An open operation of group 0. -/
def opOf (kind contribs n : Nat) : ColOp := { group := 0, optag := 9, addr := coreBase + 0x200, desc := colDesc kind contribs n 0 }

/-- Node 0 of a ring of two, core 0 running, ward 0 with a page at 0; s5 names an operation descriptor, s6 its tag's other address. -/
def sCol (d : List Word) (ops : List ColOp) : State :=
  let s := with0 (regs [(5, BitVec.ofNat 64 (coreBase + 0x200)), (6, BitVec.ofNat 64 (coreBase + 0x240))] [])
  { s with
    csr := ([(Fld.hngTorusCfg_VALID, 0, 1), (.hngTorusCfg_LX, 0, 1), (.hngPortStat_STATE, 0, 2), (.hngPortStat_STATE, 1, 2), (.colSlotStat_FREE, 0, 9)].foldl
      (fun (s : State) p => s.wr p.1 p.2.1 p.2.2) s).csr
    wards := [{ id := 0, maps := [{ va := 0, log := 21, target := .hbm hbmBase }] }]
    coll := { groups := [ringX], ops := ops }
    mem := memOf (d.mapIdx fun i w => (coreBase + 0x200 + 8 * i, w.toNat)) }

theorem sCol_clean (d : List Word) (ops : List ColOp) : (sCol d ops).Clean := by
  refine ⟨rfl, fun p hp => ?_⟩
  have h : (sCol d ops).live p = (sCol [] []).live p := by simp only [State.live, State.rd, sCol]
  exact h.trans ((by decide +kernel : ∀ p < 128, (sCol [] []).live p = true) p hp)

theorem test_wit_collectives : ∀ p ∈ [(0, 1), (1, 2), (2, 1), (3, 1)],
    let o := opOf p.1 p.2 3
    (let w : ScalarWord := { ra := 5, imm := 0 }
     w.ok false false true false true = true ∧ w.imm.toNat < 4096) ∧
    ∀ ops ∈ [[], [o]],
      let s := sCol o.desc ops
      let d := wordsIn (s.peek (coreBase + 0x200) 64)
      issues s 0 1 tile0 = true ∧ wfs s = true ∧ s.coll.early = [] ∧ ((s.core 0).sreg 5).toNat = coreBase + 0x200 ∧ (coreBase + 0x200) % 64 = 0 ∧
      s.locate tile0.ward (coreBase + 0x200) false = (0, .phys (coreBase + 0x200)) ∧ bits (d.getD 2 0).toNat 50 45 = 0 ∧
      bits (d.getD 2 0).toNat 44 29 = 9 ∧ bits (d.getD 2 0).toNat 63 60 = p.1 ∧ s.group 0 = some ringX ∧ ringX.ward = tile0.ward ∧
      s.colOp 0 9 = ops.head? ∧ s.colJoin tile0.ward (coreBase + 0x200) = ops.head? ∧ o.group = 0 ∧ o.optag = 9 ∧ o.kind = p.1 ∧ 0 < o.contribs ∧ o.sentRows = false ∧ Smap.wf 0 o.delivered = true ∧
      colDescBad ringX d = false ∧ d.getD 7 0 = 0 ∧ (((s.core 0).sreg 6).toNat) % 64 = 0 := by decide +kernel

theorem test_wit_levelZero :
    let o := { opOf 0 2 2 with delivered := [(0, 2), (1, 2)] }
    let s := sCol o.desc [o]
    wfs s = true ∧ s.group 0 = some ringX ∧ s.colOp 0 9 = some o ∧ o.kind ≤ 1 ∧ o.level0Ready 0 = true ∧ 0 ∉ o.reduced ∧ ringX.axes = [0] ∧
    (∀ j < o.contribs, let r := s.vread ringX.ward (o.word 0 + j * o.copyStride) (o.chunkLen 0 * 4); r.1 = s ∧ r.2.2 = 0) ∧
    (opOf 0 2 2).level0Ready 0 = false := by decide +kernel

theorem test_wit_staging : ∀ held ∈ [0, 4],
    let v : ChunkVal := { axis := 0, chunk := 1, vals := [0x3F800000, 0] }
    let o := { opOf 0 1 2050 with vals := [v] }
    let s := sCol o.desc [o]
    let g := { ringX with held := [held, 0, 0] }
    let s := (({ s with coll := { s.coll with groups := [g] } } : State).wr .colSlotStat_FREE 0 (if held = 4 then 0 else 9))
    wfs s = true ∧ s.group 0 = some g ∧ s.colOp 0 9 = some o ∧ (o.vals.find? fun v => decide (v.chunk = 1)) = some v ∧ o.word 7 = 0 ∧ o.order = none ∧
    (∀ y ∈ o.vals, y.axis = v.axis → 1 ≤ y.chunk) ∧ s.slotsUsed g v.axis < g.maxHold ∧ axisChunk 0 1 ∉ o.waiting ∧ axisChunk 0 1 ∉ o.granted ∧
    (s.takeSlot g 0 false).isSome = decide (held = 0) ∧ 1 < s.gSize g 0 ∧ s.ringPlace g 1 0 = 1 ∧ v.vals.length ≤ 2048 := by
  decide +kernel

theorem test_wit_claim :
    let o := { opOf 0 1 2 with waiting := [axisChunk 0 0] }
    let s := sCol o.desc [o]
    s.rd .colSlotStat_FREE (axisDie 0) ≠ 0 ∧ s.firstClaim (axisDie 0) = some ringX ∧ s.claimWaits ringX 0 = true ∧
    (s.coll.ops.find? fun o => decide (o.group = 0) && o.waiting.any fun k => decide (keyAxis k = 0)) = some o ∧
    (o.waiting.find? fun k => decide (keyAxis k = 0)) = some (axisChunk 0 0) := by decide +kernel

/-- A packet of tag 9 of group 0 for chunk 1 on X. -/
def colPacket (ward : Nat) (data : List Byte) : Packet := { src := 1, ward := ward, addr := 9 * 2 ^ 28 + 1, data := data }

theorem test_wit_colPackets :
    (let y : Staged := { axis := 0, chunk := 1, slot := 5 }
     ∀ st ∈ [[], [y]],
       let o := { opOf 0 1 2050 with staged := st }
       let s := sCol o.desc [o]
       let p := colPacket 0 [0x80, 0x3F, 0, 0]
       s.fclk = true ∧ p.dest = s.node ∧ bits p.addr 49 44 = 0 ∧ bits p.addr 43 28 = 9 ∧ ringX.ward = p.ward ∧ ringX.ward ≠ (colPacket 3 []).ward ∧
       ringX.phase ≠ .activating ∧ (o.staged.find? fun y => decide (y.axis = bits p.addr 27 26) && decide (y.chunk = bits p.addr 23 0)) = st.head? ∧
       y.slot < 2048 ∧ s.ringPlace ringX 1 0 ≠ s.gSize ringX 0 ∧ o.readyIn = []) ∧
    (let o := opOf 2 1 2050
     let s := sCol o.desc [o]
     let p := colPacket 0 [1, 2, 3, 4]
     o.dfmt = ringX.tfmt ∧ o.word 4 = 0 ∧ p.pz = false ∧ (∀ z ∈ ringX.axes, 0 ≤ z) ∧
     ringX.prime (s.ringNext ringX 1 0 true) 0 = s.ownerPos ringX 1 0 ∧
     ∀ i < 2 * o.chunkLen 1, s.locate 0 (o.word 1 + 4096 * 1 + i) true = (0, .phys (hbmBase + o.word 1 + 4096 + i)) ∧
       inHbm (hbmBase + o.word 1 + 4096 + i) = inHbm (hbmBase + o.word 1 + 4096)) ∧
    (let o := opOf 3 1 0
     let s := sCol o.desc [o]
     let p := colPacket 0 (List.replicate 64 7)
     let at_ := o.word 1 + (s.gRank ringX p.src * o.cap + bits p.addr 15 0) * o.rowBytes + 4096 * bits p.addr 27 16
     ¬(bits p.addr 15 0 = 0xFFFF ∧ bits p.addr 27 16 = 0xFFF) ∧
     ∀ i < p.data.length, s.locate 0 (at_ + i) true = (0, .phys (hbmBase + at_ + i)) ∧ inHbm (hbmBase + at_ + i) = inHbm (hbmBase + at_)) := by
  decide +kernel

theorem test_wit_opLimit :
    let o := opOf 0 1 1
    let s : State := { sCol o.desc [o] with requests := [{ id := 0, tasks := [{ phase := .dispatched }] }] }
    (s.task o.task.1 o.task.2).map (·.phase) = some .dispatched ∧ (s.colOp 0 9).isSome = true ∧ (s.group 0).isSome = true := by decide +kernel

theorem test_wit_operationDone : ∀ sig ∈ [0, 0x20000],
    let o := { opOf 3 1 0 with landed := [1, 0], sentRows := true, desc := colDesc 3 1 0 sig }
    let s := sCol o.desc [o]
    s.colFinished ringX o = true ∧ o.word 6 = 0 ∧ o.word 5 = sig ∧ s.locate 0 0x20000 true = (0, .phys (hbmBase + 0x20000)) := by
  decide +kernel

/-- Ward 0's queue 7, whose first entry is GROUP_ACT of the descriptor at 0x5000, or GROUP_DEACT of group 0. -/
def sGroup (op : Nat) (groups : List Group) (ops : List ColOp) : State :=
  let s := sHost 1 op
  { s with
    csr := ([(Fld.hngTorusCfg_VALID, 0, 1), (.hngTorusCfg_LX, 0, 1), (.hngPortStat_STATE, 0, 2), (.hngPortStat_STATE, 1, 2)].foldl
      (fun (s : State) p => s.wr p.1 p.2.1 p.2.2) s).csr
    coll := { groups := groups, ops := ops }
    mem := memOf [(hbmBase + 0x4000, op * 2 ^ 56 + 77), (hbmBase + 0x4008, if op = 2 then 0x5000 else 0), (hbmBase + 0x5000, 2 ^ 55)] }

theorem test_wit_groups :
    (∀ p ∈ [(2, ([] : List Group), ([] : List ColOp)), (3, [ringX], []), (3, [ringX], [{ group := 0 }]), (3, [], [])],
      let s := sGroup p.1 p.2.1 p.2.2
      let q := (s.gotar 7).getD {}
      let r := s.vread q.ward (s.node * 2 ^ 52 + q.sqBase + q.taken % q.es * 128) 128
      let e : SubEntry := { index := q.taken, began := q.began q.taken s.raw, ws := wordsIn r.2.1 }
      wfs s = true ∧ s.hinge.ports.length = 6 ∧ s.coll.early = [] ∧ (s.gotar 7).isSome = true ∧ q.taken ≠ q.tail ∧ s.deleting q.ward = false ∧
      (s.qp 7).map (·.state) = some .rts ∧ r.1 = s ∧ r.2.2 = 0 ∧ e.reserved = false ∧ e.op = p.1 ∧
      (p.1 = 2 → e.word 1 % 64 = 0 ∧ s.locate q.ward (e.word 1) false = (0, .phys (hbmBase + 0x5000)) ∧ s.coll.heard = [] ∧
        (let ws := wordsIn (s.peek (hbmBase + 0x5000) 64)
         s.groupCode { w0 := (ws.getD 0 0).toNat, w1 := (ws.getD 1 0).toNat } ws = 0 ∧ s.groupPorts { w0 := (ws.getD 0 0).toNat } = [0, 1])) ∧
      (p.1 = 3 → bits (e.word 1) 5 0 = 0 ∧ s.group 0 = p.2.1.head? ∧ s.groupBusy 0 = !p.2.2.isEmpty)) ∧
    (∀ ports ∈ [[0], [0, 1]],
      let x := { ringX with phase := .activating, waitPorts := ports }
      let s := sGroup 2 [x] []
      s.group 0 = some x ∧ x.phase = .activating ∧ 0 ∈ x.waitPorts ∧ (x.waitPorts.filter (· ≠ 0) = [] ↔ ports = [0])) ∧
    (∀ ops ∈ [[], [({ group := 0 } : ColOp)]],
      let x := { ringX with phase := .ending }
      let s := sGroup 2 [x] ops
      s.group 0 = some x ∧ s.groupBusy 0 = !ops.isEmpty ∧ (∀ w ∈ s.wards, w.deleting = false) ∧ s.fclk = true ∧ s.rd .hngPortStat_STATE 1 = 2) := by
  decide +kernel

/-! ### Witnesses: health, log and journal -/

theorem test_wit_health :
    (let s := ready
     wfs s = true ∧ Smap.wf {} s.hbm.pcs = true ∧ s.scrubs = true ∧ s.live 127 = true ∧ (s.pc 127).passDone = false ∧ (s.pc 127).rows = []) ∧
    (let s : State := { ready with hbm := { ready.hbm with pcs := [(127, { scrubDue := true })] } }
     s.marks = [] ∧ s.csr = ready.csr ∧ (s.pc 127).scrubDue = true ∧ (s.pc 127).scrubPos + 1 < s.scrubUnits 127) ∧
    (let s : State := { ready with hbm := { ready.hbm with rebuilding := true, copies := [0] } }
     s.hbm.rebuilding = true ∧ s.liveStack 3 = true ∧ 3 ∉ s.hbm.copies) ∧
    ready.isReady = true ∧ ready.clusters.length = 24 ∧ (ready.cluster 23).excluded = false := by decide +kernel

theorem test_wit_troubleLog :
    (let e : LogEntry := { sev := 3 }
     let s : State := { (ready.wr .logCfg_NOTIFY_EN 0 1).wr .logStat_HEAD 0 4096 with log := { queue := [e] } }
     wfs s = true ∧ s.sclk = true ∧ s.log.queue = [e] ∧ Smap.wf [] s.log.ring = true ∧ s.rd .logCfg_ALERT_SEV ≤ e.sev ∧
     s.flag .logCfg_NOTIFY_EN = true ∧ s.rd .logStat_HEAD = 4096) ∧
    (∀ n ∈ [0, 5],
      let s : State := { ready with hbm := { ready.hbm with pcs := [(3, { ceCount := n, ceLast := 1 })] } }
      Smap.wf {} s.hbm.pcs = true ∧ (s.pc 3).ceCount = n ∧ s.log.queue.length < 64) ∧
    (let s := sHost 0 0
     let s : State := { s with host := { s.host with notice := true } }
     (s.gotar 0).map (fun q => (q.room, q.heldEntries, q.rewrite)) = some (true, [], 0) ∧ (s.qp 0).isSome = true ∧ s.host.notice = true ∧
     s.hostRts 0 = true) := by decide +kernel

/-- A journal in use, with its queue and what is left to erase. -/
def sJournal (pos : Nat) (queue : List JournalRec) (erasing : List Nat) : State :=
  { ready.wr .sysStartStat_STEP 0 9 with
    journal := { usable := true, recovered := true, sinceHistory := 60 * ready.rd .jrnCfg_PERIOD_MIN, pos := pos, queue := queue, erasing := erasing } }

theorem test_wit_journal :
    (let s := sJournal 0 [] []
     wfs s = true ∧ s.sclk = true ∧ Smap.wf 0 s.journal.image = true ∧ Smap.wf blank s.flash = true ∧ s.journal.recovered = true ∧
     s.journal.closing = false ∧ s.journal.usable = true ∧ s.journal.queue.length < 64 ∧ 60 * s.rd .jrnCfg_PERIOD_MIN ≤ s.journal.sinceHistory ∧
     s.managed = true) ∧
    (let r : JournalRec := { type := 2, payload := [1, 2, 3] }
     let s := sJournal 1024 [r] []
     s.journal.queue = [r] ∧ s.mayAppend = true ∧ r.done = 0 ∧ s.journal.pos + recordSize r.payload.length < compactAt) ∧
    ∀ rest ∈ [[], [0x1410000]],
      let s := sJournal 0 [] (0x1400000 :: rest)
      s.journal.erasing = 0x1400000 :: rest ∧ wfs s = true := by decide +kernel

/-! ### Witnesses: power and temperature -/

/-- The power manager at work: cluster 0 of ward 0 below its target, in a given droop state; die 1 asks its regulator. -/
def sPower (d : Droop) : State :=
  let s := (ready.wr .clkClusterStat_FREQ 0 3).wr .clkClusterStat_TARGET 0 5
  { s with
    clusters := { ward := some 0, droop := d } :: List.replicate 23 {}
    dies := [{ vdd := 900 }, { avsPending := true, avsTries := 3 }, { avsRetry := true }, {}]
    power := { due := true, volts := List.replicate 24 (List.replicate 29 700) } }

theorem test_wit_power :
    (let s := sPower .none
     wfs s = true ∧ s.managed = true ∧ s.power.due = true ∧ s.clusters.length = 24 ∧ s.maySteps 0 = true ∧ 2 < s.dies.length ∧
     (s.die 1).avsPending = true ∧ (s.die 2).avsRetry = true ∧ s.csrServes .host = true ∧ s.staging .host = none ∧
     (s.cluster 0).ward.isSome = true ∧ (s.cluster 1).ward = none ∧ s.flag .clkClusterCfg_HOLD 0 = false) ∧
    (∀ d ∈ [Droop.none, .stretched, .recovering], ((sPower d).cluster 0).droop = d) ∧
    tripLevel ≤ 420 ∧ 419 < tripLevel ∧ (∃ t ∈ [0, 420], tripLevel ≤ t) ∧
    (let temps := [4 * ready.rd .pwrThermCfg_ALERT_C]
     (∀ t ∈ temps, t < tripLevel) ∧ 4 * ready.rd .pwrThermCfg_ALERT_C ≤ temps.foldl max 0) := by decide +kernel

/-! ### Witnesses: start-up and restart -/

/-- The device at a point of its start. -/
def sStart (ph : StartPhase) : State := { State.reset with boot := { phase := ph, clocks := true, resetN := true } }

theorem test_wit_start :
    (∀ n ∈ [3, 4, 5, 6, 7, 8, 9], (sStart (.step n)).boot.phase = .step n ∧ wfs (sStart (.step n)) = true) ∧
    ((sStart .armed).boot.phase = .armed ∧ (sStart .armed).boot.pwrGood = true ∧ (sStart .armed).boot.resetN = true) ∧
    (sStart (.step 3)).chooseSlot.2 = none ∧ (sStart (.step 5)).chooseRegion = none ∧
    (State.reset.boot.pwrGood = true ∧ State.reset.boot.resetN = false) ∧ ({ State.reset.boot with pwrGood := false } : Boot).pwrGood = false ∧
    (∃ p q, p < 128 ∧ q < 128 ∧ p ∉ [5] ∧ q ∉ [5] ∧ p / 32 ≠ q / 32) ∧ (∀ l < 8, l ∉ ([] : List Nat)) := by
  refine ⟨by decide +kernel, by decide +kernel, by decide +kernel, by decide +kernel, by decide +kernel, rfl,
    ⟨0, 32, by decide⟩, by decide⟩

/-- A region whose header is sound makes recovery replay it. -/
theorem test_wit_recovery :
    let snap : List Byte := bytesOf 4 1 ++ List.replicate 60 0
    let bs := recordBytes 0x01 0 snap
    let s := { sStart (.step 5) with flash := (bs.mapIdx fun i b => (regionBase 1 + i, b)).filter fun p => p.2 ≠ blank }
    s.boot.phase = .step 5 ∧ s.chooseRegion = some 1 := by decide +kernel

theorem test_wit_restarts :
    (∀ p ∈ [(true, false), (false, false)],
      let s := sJournal 0 [] []
      let s : State := { s with journal := { s.journal with usable := p.1 } }
      wfs s = true ∧ s.restarts = true ∧ s.isReady = true ∧ s.updating = false ∧ s.journal.usable = p.1 ∧ s.journal.full = false ∧ s.journal.closing = false) ∧
    (let s : State := { sJournal 0 [] [] with boot := { phase := .step 7, clocks := true, resetN := true } }
     s.restarts = true ∧ s.isReady = false ∧ s.boot.phase ≠ .fatal) ∧
    (let s := sJournal 0 [] []
     let s : State := { s with host := { s.host with mgmt := some { code := 0x44, stage := 1 } } }
     s.restarts = true ∧ s.isReady = true ∧ s.updating = true) ∧
    (let r : JournalRec := { type := 0x05, done := 4 }
     let s := sJournal 0 [r] []
     s.journal.queue = [r] ∧ s.mayAppend = true ∧ s.journal.pos + recordSize r.payload.length ≤ regionSize ∧ Requester.i3c ≠ .host) := by
  decide +kernel

/-! ### Witnesses: registers, sideband and JTAG -/

theorem test_wit_registerWrites : ∀ p ∈ [(Reg.clkStepCfg, Fld.clkStepCfg_SYNC_EN), (.hngRetireCfg, .hngRetireCfg_LANE_LIMIT), (.logStat, .logStat_ALERT), (.sysTime, .sysTime_TIME)],
    let r := p.1
    let off := r.offset 0 0
    wfs ready = true ∧ ready.csrServes .i3c = true ∧ off % 8 = 0 ∧ off < 2 ^ 28 ∧ ready.staging .i3c = none ∧ Reg.atCsr off = some (r, 0, 0) ∧
    r.loc.words = 1 ∧ ready.csrReach (off / 2 ^ 24) = true ∧ p.2 ∈ r.fields ∧
    r ∉ [Reg.hngTorusCfg, .expPartnerCfg, .expPortCfg, .pwrThermCfg, .coreExcRecord, .jrnCtl, .sysRestart, .logFilter] := by decide +kernel

theorem test_wit_registerKinds :
    Fld.clkStepCfg_SYNC_EN.info.acc = .rw ∧ mayWrite .i3c .clkStepCfg_SYNC_EN = true ∧ Fld.sysTime_TIME.info.acc = .ro ∧
    Fld.hngRetireCfg_LANE_LIMIT.info.acc = .rwx ∧ mayWrite .signed .hngRetireCfg_LANE_LIMIT = true ∧ ready.rwxOpen .hngRetireCfg 0 = false ∧
    (ready.wr .sysExpertCtl_EXPERT_UNLOCK 0 1).rwxOpen .hngRetireCfg 0 = true ∧ Reg.atCsr 8 ≠ some (.sysTime, 0, 0) := by decide +kernel

/-- A requester that has staged word 0 of EXP_KEYWAY_LOAD: the keyway at 0x6000, slot 5. -/
def sKeyway (preset : Nat) : State :=
  let s := sHost 0 0
  { s with side := { s.side with staged := [(.host, { offset := Reg.expKeywayLoad.offset 1 0, words := [(0, 0x6005, 2 ^ 64 - 1)] })] }
           mem := memOf [(hbmBase + 0x6000, preset * 2 ^ 60)] }

theorem test_wit_keyway :
    (let s := sKeyway 1
     wfs s = true ∧ s.csrServes .host = true ∧ s.csrReach 1 = true ∧ s.csrReach 0 = true ∧
     s.staging .host = some { offset := Reg.expKeywayLoad.offset 1 0, words := [(0, 0x6005, 2 ^ 64 - 1)] } ∧ s.wardActive 0 = true ∧
     s.locate 0 0x6000 false = (0, .phys (hbmBase + 0x6000)) ∧ (∀ p < 256, s.flag .expPartnerCfg_ENABLE p = true → s.rd .expPartnerCfg_KEYWAY p ≠ 5) ∧
     (let ws := wordsIn (s.peek (hbmBase + 0x6000) 64); keywayOk ws = true ∧ bits (ws.getD 0 0).toNat 63 60 ≠ 0) ∧
     Smap.wf [] s.exporter.keyways = true ∧ s.wardActive 511 = false) ∧
    (sHost 0 0).staging .host = none ∧ (sHost 0 0).hinge.timeLocked = false := by decide +kernel

/-- A keyway is loaded, and a queue pair of port 1 stands at 64. -/
def sPartner (enabled : Nat) : State :=
  let s := (sHost 0 0).wr .expPartnerCfg_ENABLE 3 enabled
  { s with exporter := { s.exporter with keyways := [(5, [1, 0, 0, 0, 0, 0, 0, 0])] }
           host := { s.host with qps := [(64, { state := .rts, port := 1 })] } }

theorem test_wit_partner :
    (let v : Word := BitVec.ofNat 64 (2 ^ 63 + 2 ^ 50 + 5 * 2 ^ 36 + 64 * 2 ^ 22)
     let s := sPartner 0
     let t := [(Fld.expPartnerCfg_PORT_MASK, 1), (.expPartnerCfg_KEYWAY, 5), (.expPartnerCfg_QP_BASE, 64)].foldl (fun (s : State) p => s.wr p.1 3 p.2) s
     enables v = true ∧ s.flag .expPartnerCfg_ENABLE 3 = false ∧ s.staging .host = none ∧ bits v.toNat 53 50 = 1 ∧ bits v.toNat 41 36 = 5 ∧
     bits v.toNat 35 22 = 64 ∧ t.partnerOk 3 = true ∧ s.partnerOk 3 = false) ∧
    (enables 0 = false ∧ (sPartner 1).flag .expPartnerCfg_ENABLE 3 = true ∧ wfs (sPartner 1) = true) := by decide +kernel

theorem test_wit_connect :
    (∀ p ∈ [(0, 10, 10), (2, 10, 3), (1, 10, 10)],
      let s := ((ready.wr .hostQp0Cfg_STATE 0 p.1).wr .hostQp0Cfg_TIMEOUT_EXP 0 p.2.1).wr .hostQp0Cfg_EC_LOG2 0 p.2.2
      s.csrUp = true ∧ s.csrReach 0 = true ∧ s.staging .i3c = none ∧ s.rd .hostQp0Cfg_STATE = p.1 ∧ s.qp0Valid = decide (p.2.2 ≠ 3)) ∧
    ((1 : Word).toNat.testBit 0 = true ∧ (1 : Word).toNat.testBit 1 = false ∧ (2 : Word).toNat.testBit 0 = false ∧ (2 : Word).toNat.testBit 1 = true) := by
  decide +kernel

/-- The I3C target, with its state. -/
def sSide (x : Sideband) : State := { ready with side := x }

theorem test_wit_sideband :
    (∀ x ∈ [({ mayJoin := true } : Sideband), { addr := some 9, pointer := Reg.sysTime.offset 0 0, len := 1, reading := true }],
      let s := sSide x
      s.sideUp = true ∧ s.side.smbus = false ∧ s.side.events.testBit 3 = true ∧ s.side.events < 256 ∧ (s.side.addr.isNone = s.side.mayJoin) ∧
      ∀ i < s.side.len, s.sideReads (s.side.pointer + 8 * i) = true) ∧
    (let off := Reg.sysTime.offset 0 0
     let rd := [0x10, 1] ++ bytesOf 4 off
     let wr := [0x20, 1] ++ bytesOf 4 (Reg.clkStepCfg.offset 0 0) ++ bytesOf 8 3
     let deny := [0x20, 1] ++ bytesOf 4 (Reg.wrdPolicy.offset 0 0) ++ bytesOf 8 3
     (sideHead rd).op ≠ 0x20 ∧ sideOk rd = true ∧ sideOk (rd ++ [0]) = false ∧ (sideHead wr).op = 0x20 ∧ sideOk wr = true ∧
     (sideHead wr).len = 1 ∧ ready.sideWrites (sideHead wr).offset = true ∧ sideOk (wr ++ [0]) = false ∧
     sideOk deny = true ∧ (sideHead deny).op = 0x20 ∧ dropPec wr = wr ∧ dropPec (wr ++ [pecOf wr]) = wr ∧
     sideOk (dropPec (wr ++ [pecOf wr + 1])) = false) ∧
    (let s := sStart (.step 3)
     s.sideUp = true ∧ s.sideReads (Reg.sysTime.offset 0 0) = false ∧ s.sideReads (Reg.sysStartStat.offset 0 0) = true ∧
     s.sideWrites (Reg.clkStepCfg.offset 0 0) = false) ∧
    State.reset.boot.resetN = false ∧ ready.boot.resetN = true := by decide +kernel

/-- CRC-8 of SMBus: the check value of the ASCII digits 1 to 9 is 0xF4. -/
theorem test_crc8 : ([0x31, 0x32, 0x33, 0x34, 0x35, 0x36, 0x37, 0x38, 0x39] : List Byte).foldl crc8 0 = 0xF4 := by decide +kernel

/-! ### The whole machine -/

theorem test_wit_stops : State.reset.boot.pwrGood = true ∧
    (let s : State := { State.reset with boot := { phase := .off, pwrGood := false } }
     exec (.powerOn [2, 1]) s = .fault .supplyOrder) ∧ [2, 1] ≠ supplyOrder := by
  refine ⟨rfl, rfl, by decide⟩

theorem test_wit_canonical : (State.reset).Wf ∧ step { one with pending := [.nop 0 {}] } = .next (after (.nop 0 {}) one) :=
  ⟨wf_of (by decide +kernel), rfl⟩

/-! ### One step of a few commands, with results worked out from the spec -/

/-- What core 0's register n holds after a command. -/
def regAfter (i : Instr) (s : State) (n : Nat) : Word := ((after i s).core 0).sreg n

/-- s5 = 2^64 - 1, s6 = 2^63, s7 = 65. -/
def sAlu : State := with0 (regs [(5, 0xFFFFFFFFFFFFFFFF), (6, 0x8000000000000000), (7, 65)] [])

/-- R312: wrap, sign, and the low 6 bits of a shift count; s0 reads 0. -/
theorem test_alu :
    regAfter (.add 0 { rd := 1, ra := 5, rb := 7 }) sAlu 1 = 64 ∧ regAfter (.sra 0 { rd := 5, ra := 6, rb := 7 }) sAlu 5 = 0xC000000000000000 ∧
    regAfter (.shr 0 { rd := 1, ra := 6, rb := 7 }) sAlu 1 = 0x4000000000000000 ∧ regAfter (.minu 0 { rd := 1, ra := 5, rb := 6 }) sAlu 1 = 0x8000000000000000 ∧
    regAfter (.add 0 { rd := 0, ra := 5, rb := 7 }) sAlu 0 = 0 := by decide +kernel

/-- Table 12.3: BLT is signed, BLTU unsigned; a branch is taken relative to its own address in units of a word. -/
theorem test_branch :
    ((after (.blt 0 { ra := 5, rb := 7, imm := 4 }) sAlu).core 0).pc = coreBase + 32 ∧
    ((after (.bltu 0 { ra := 5, rb := 7, imm := 4 }) sAlu).core 0).pc = coreBase + 8 := by decide +kernel

/-- A store of the last word of core memory and the load of it. -/
theorem test_memory :
    (let u := after (.st 0 { ra := 5, rb := 6, imm := 0xFFFF8 }) s32
     (u.byte (coreBase + 0x1FFFF8), u.byte (coreBase + 0x1FFFF9), regAfter (.ld 0 { rd := 9, ra := 5, imm := 0xFFFF8 }) { u with cores := s32.cores } 9) =
       (77, 0, 77)) := by decide +kernel

/-- Table 20.7: in reset ALERT_N and THERMTRIP_N are released, STEP_OUT low and the I3C pins in high impedance; a ready device
with ALERT set drives ALERT_N low. -/
theorem test_pins :
    (State.reset.alertPin, State.reset.thermtripPin, State.reset.stepOut, State.reset.i3cPins, State.reset.xspiReset) =
      (.released, .released, .low, .highZ, .low) ∧
    ((ready.wr .logStat_ALERT 0 1).alertPin, ready.alertPin, ready.i3cPins) = (.low, .released, .active) := by decide +kernel

/-- A move copies its bytes and its signal follows; an atomic exchange returns the old word. -/
theorem test_moveAtom :
    (let s := { sMove with mem := pokeMem sMove.mem coreBase [1, 2, 3, 4] }
     let u := after (.movSig 0 { rd := 8, ra := 5, rb := 6, rc := 7, imm := 3 }) s
     (u.peek (coreBase + 4096) 4, u.peekN (coreBase + 8192) 8) = ([1, 2, 3, 4], 3)) ∧
    (let s := { sMove with mem := pokeMem sMove.mem (coreBase + 8192) [9] }
     let u := after (.atomSwap 0 { aop := 2, rd := 63, ra := 8, rb := 7 }) s
     (u.peekN (coreBase + 8192) 8, (u.core 0).sreg 63) = (128, 9)) := by decide +kernel

/-- A product of 2 x 2 matrices of BF16 whose first elements are 2 and 3: accumulator (0, 0) holds 6 (R64, R69). -/
theorem test_product :
    (let s := { sMat with mem := pokeMem (pokeMem [] coreBase [0x00, 0x40]) (coreBase + 256) [0x40, 0x40] }
     let u := after (.mma 0 { afmt := 3, bfmt := 3, rd := 7, ra := 1, rb := 3 }) s
     let w := ((u.core 0).accAt (accKey 0 false 7 0 0)).w
     (w.cls, w.neg, w.ex, w.sig, (u.core 0).pc) = (.fin, false, 2, 6 * 2 ^ 76, coreBase + 8) ∧
     (∀ p ∈ [(0, 1), (1, 0), (1, 1)], ((u.core 0).accAt (accKey 0 false 7 p.1 p.2)).w.cls = .zero)) := by
  decide +kernel

end Sys2Proof.Machine
end

/-! SUPPORT. Memory without damage: what its readers and writers do, in one equation each, and what they leave unchanged. -/
namespace Sys2Proof

/-! ### Bytes and numbers -/

theorem bytesOf_succ (n x : Nat) : bytesOf (n + 1) x = BitVec.ofNat 8 x :: bytesOf n (x / 256) := by
  simp only [bytesOf, List.range_succ_eq_map, List.map_cons, List.map_map]
  rw [List.cons.injEq]
  refine ⟨rfl, List.map_congr_left fun i _ => ?_⟩
  rw [Function.comp, Nat.succ_eq_add_one, Nat.mul_add, Nat.mul_one, Nat.add_comm (8 * i), Nat.shiftRight_add,
    Nat.shiftRight_eq_div_pow x 8]

@[simp] theorem bytesOf_length (n x : Nat) : (bytesOf n x).length = n := by simp [bytesOf]

/-- The bytes of a number spell it again, cut to their size (R6). -/
theorem ofBytes_bytesOf (n x : Nat) : ofBytes (bytesOf n x) = x % 256 ^ n := by
  induction n generalizing x with
  | zero => simp [bytesOf, ofBytes, Nat.mod_one]
  | succ n ih =>
    rw [bytesOf_succ, ofBytes, ih, BitVec.toNat_ofNat, Nat.pow_succ' (n := n)]
    exact Nat.mod_mul.symm

theorem ofBytes_lt : ∀ bs : List Byte, ofBytes bs < 256 ^ bs.length
  | [] => by simp [ofBytes]
  | b :: bs => by
    have h := ofBytes_lt bs
    have hb := b.isLt
    rw [ofBytes, List.length_cons, Nat.pow_succ']
    omega

end Sys2Proof

namespace Sys2Proof.Machine

theorem wordAt_lt (bs : List Byte) (i : Nat) : wordAt bs i < 2 ^ 64 :=
  calc wordAt bs i < 256 ^ ((bs.drop (8 * i)).take 8).length := ofBytes_lt _
    _ ≤ 256 ^ 8 := Nat.pow_le_pow_right (by decide) (List.length_take_le _ _)
    _ = 2 ^ 64 := by decide

theorem State.peekN_lt (s : State) (a : Nat) : s.peekN a 8 < 2 ^ 64 := by
  have h := ofBytes_lt (s.peek a 8)
  rw [State.peek, List.length_map, List.length_range] at h
  exact h

/-! ### Bytes stored -/

theorem pokeMem_append : ∀ (bs cs : List Byte) (m : List (Nat × Byte)) (a : Nat),
    pokeMem m a (bs ++ cs) = pokeMem (pokeMem m a bs) (a + bs.length) cs
  | [], _, _, _ => rfl
  | b :: bs, cs, m, a => by
    rw [List.cons_append, pokeMem, pokeMem, pokeMem_append bs cs, List.length_cons, Nat.add_assoc, Nat.add_comm 1]

/-- Bytes stored behind those just stored are one run of bytes. -/
theorem State.poke_poke (s : State) (a : Nat) (bs cs : List Byte) :
    (s.poke a bs).poke (a + bs.length) cs = s.poke a (bs ++ cs) := by
  simp only [State.poke, pokeMem_append]

theorem State.byte_poke_inside {s : State} (h : s.Wf) (a : Nat) (bs : List Byte) {i : Nat} (hi : i < bs.length) :
    (s.poke a bs).byte (a + i) = bs.getD i 0 := by
  rw [State.byte_poke h, if_pos (by omega), Nat.add_sub_cancel_left]

theorem State.byte_poke_outside {s : State} (h : s.Wf) (a : Nat) (bs : List Byte) {x : Nat}
    (hx : x < a ∨ a + bs.length ≤ x) : (s.poke a bs).byte x = s.byte x := by
  rw [State.byte_poke h, if_neg (by omega)]

/-- What was stored is what a range holds. -/
theorem State.peek_poke {s : State} (h : s.Wf) (a : Nat) (bs : List Byte) : (s.poke a bs).peek a bs.length = bs := by
  refine List.ext_getElem (by simp [State.peek]) fun i _ hi => ?_
  simp only [State.peek, List.getElem_map, List.getElem_range]
  rw [State.byte_poke_inside h a bs hi, List.getD_eq_getElem?_getD, List.getElem?_eq_getElem hi, Option.getD_some]

/-- A 64-bit word just stored reads back. -/
theorem State.peekN_pokeN {s : State} (h : s.Wf) (a : Nat) {v : Nat} (hv : v < 2 ^ 64) : (s.pokeN a 8 v).peekN a 8 = v := by
  have hp := State.peek_poke h a (bytesOf 8 v)
  rw [bytesOf_length] at hp
  rw [State.peekN, State.pokeN, hp, ofBytes_bytesOf]
  exact Nat.mod_eq_of_lt hv

theorem State.byte_pokeN_outside {s : State} (h : s.Wf) (a : Nat) {n v x : Nat} (hx : x < a ∨ a + n ≤ x) :
    (s.pokeN a n v).byte x = s.byte x :=
  State.byte_poke_outside h a _ (by rwa [bytesOf_length])

/-! ### Memory without damage -/

theorem ite_ne_of_ne {α : Type} {p : Prop} [Decidable p] {x y z : α} (hx : x ≠ z) (hy : y ≠ z) : (if p then x else y) ≠ z := by
  split
  · exact hx
  · exact hy

/-- The one part of the address map that is HBM (Table 1.7). -/
theorem region_eq_hbm {a off : Nat} :
    region a = .hbm off ↔ hbmBase ≤ a ∧ a < hbmBase + 0x8000000000 ∧ a - hbmBase = off := by
  unfold region
  by_cases hlo : a < hbmBase
  · rw [if_pos hlo]
    exact ⟨nofun, fun h => absurd hlo (Nat.not_lt.2 h.1)⟩
  rw [if_neg hlo]
  by_cases hhi : a < hbmBase + 0x8000000000
  · rw [if_pos hhi, Region.hbm.injEq]
    exact ⟨fun h => ⟨Nat.not_lt.1 hlo, hhi, h⟩, fun h => h.2.2⟩
  rw [if_neg hhi]
  refine ⟨fun h => absurd h ?_, fun h => absurd h.2.1 hhi⟩
  repeat' apply ite_ne_of_ne
  all_goals nofun

theorem inHbm_iff {a : Nat} : inHbm a = true ↔ hbmBase ≤ a ∧ a < hbmBase + 0x8000000000 := by
  constructor
  · intro h
    unfold inHbm at h
    split at h
    · next off hr => exact ⟨(region_eq_hbm.1 hr).1, (region_eq_hbm.1 hr).2.1⟩
    · cases h
  · rintro ⟨h1, h2⟩
    rw [inHbm, region_eq_hbm.2 ⟨h1, h2, rfl⟩]

/-- The bytes of an aligned 64-bit word all lie in HBM, or none does. -/
theorem inHbm_word {a i : Nat} (ha : a % 8 = 0) (hi : i < 8) : inHbm (a + i) = inHbm a := by
  rw [Bool.eq_iff_iff, inHbm_iff, inHbm_iff]
  unfold hbmBase
  omega

variable {s : State}

theorem State.Clean.liveHbm (h : s.Clean) {a off : Nat} (hr : region a = .hbm off) : s.live (pcNum off) = true := by
  obtain ⟨-, hlt, rfl⟩ := region_eq_hbm.1 hr
  exact h.live _ (by unfold pcNum; omega)

/-- Every range of a clean state is sound. -/
theorem State.Clean.sound (h : s.Clean) (a n : Nat) : s.sound a n = true := by
  unfold State.sound
  rw [h.marks]
  cases hr : region a with
  | hbm off => simpa [Smap.within] using h.liveHbm hr
  | _ => simp [Smap.within]

theorem State.Clean.read (h : s.Clean) (a n : Nat) : s.read a n = (s, s.peek a n, 0) :=
  State.read_of_sound h.marks (h.sound a n)

theorem State.Clean.unitDamage (h : s.Clean) (a : Nat) : s.unitDamage a = [] := by
  rw [State.unitDamage, if_pos (h.sound a 64)]

theorem State.Clean.poke (h : s.Clean) (a : Nat) (bs : List Byte) : (s.poke a bs).Clean := ⟨h.marks, h.live⟩

theorem State.Clean.mark (h : s.Clean) (a : Nat) : s.mark a = {} := by rw [State.mark, h.marks]; rfl

theorem State.Clean.touchWord (h : s.Clean) (a : Nat) : s.touchWord a = s := by
  unfold State.touchWord
  rw [h.mark]
  rfl

theorem State.Clean.foldl_touchWord (h : s.Clean) : ∀ l : List Nat, l.foldl State.touchWord s = s
  | [] => rfl
  | a :: l => by rw [List.foldl_cons, h.touchWord, h.foldl_touchWord l]

theorem State.Clean.wordDamage (h : s.Clean) (a : Nat) : s.wordDamage a = 0 := by
  unfold State.wordDamage
  rw [h.mark]
  cases hr : region a with
  | hbm off => simp [h.liveHbm hr, bchDecode]
  | _ => exact (by decide :
      (if sramPoisoned {} then cPoison else if sramBad ({} : WordMark).flips.toNat then cUncorrectable else 0) = 0)

theorem State.Clean.rmwDamage (h : s.Clean) (a n : Nat) : s.rmwDamage a n = 0 := by
  have hd : ∀ b k, s.damage b k = 0 := fun b k => by rw [State.damage, if_pos (h.sound b k)]
  unfold State.rmwDamage
  rw [hd]
  cases region a with
  | hbm off => simp [hd, firstCode, failIf]
  | _ => rfl

theorem State.Clean.touchRmw (h : s.Clean) (a n : Nat) : s.touchRmw a n = s := by
  unfold State.touchRmw
  split <;> exact State.touch_of_no_marks h.marks _ _

/-- A part of a unit of HBM that is not damaged is stored as it is (R245). -/
theorem State.Clean.writeUnit (h : s.Clean) {a : Nat} (ha : inHbm a = true) (bs : List Byte) : s.writeUnit a bs = s.poke a bs := by
  unfold inHbm at ha
  unfold State.writeUnit
  cases hr : region a with
  | hbm off => simp [h.liveHbm hr, h.sound]
  | _ => simp [hr] at ha

theorem State.Clean.writeSram (h : s.Clean) (a : Nat) (bs : List Byte) : s.writeSram a bs = s.poke a bs := by
  have hb : (partWords a bs.length).filter (fun w => decide (s.wordDamage w = cUncorrectable)) = [] := by
    simp [h.wordDamage, cUncorrectable]
  unfold State.writeSram
  simp only [h.foldl_touchWord, hb, List.foldl_nil]
  rw [h.marks]
  rfl

/-- How many of n bytes from a on lie before unit j, counted from the unit of a. -/
def bytesBefore (a n j : Nat) : Nat := min n ((a / 64 + j) * 64 - a)

/-- One unit's share of a write to HBM. -/
def State.writeShare (a : Nat) (bs : List Byte) (s : State) (u : Nat) : State :=
  s.writeUnit (max a u) ((bs.drop (max a u - a)).take (min (a + bs.length) (u + 64) - max a u))

/-- The shares of the units before unit j together store the bytes that lie before it. -/
theorem State.Clean.foldl_writeShare (h : s.Clean) {a : Nat} {bs : List Byte} (ha : ∀ i < bs.length, inHbm (a + i) = true) (j : Nat)
    (hj : j ≤ (a + bs.length - 1) / 64 + 1 - a / 64) (hn : 0 < bs.length) :
    ((List.range j).map fun i => (a / 64 + i) * 64).foldl (State.writeShare a bs) s = s.poke a (bs.take (bytesBefore a bs.length j)) := by
  induction j with
  | zero =>
    have h0 : bytesBefore a bs.length 0 = 0 := by unfold bytesBefore; omega
    rw [h0]
    rfl
  | succ j ih =>
    have hlt : bytesBefore a bs.length j < bs.length := by unfold bytesBefore; omega
    have hlo : max a ((a / 64 + j) * 64) = a + bytesBefore a bs.length j := by unfold bytesBefore; omega
    have hhi : min (a + bs.length) ((a / 64 + j) * 64 + 64) = a + bytesBefore a bs.length (j + 1) := by unfold bytesBefore; omega
    have hle : bytesBefore a bs.length j ≤ bytesBefore a bs.length (j + 1) := by unfold bytesBefore; omega
    have hlen : (bs.take (bytesBefore a bs.length j)).length = bytesBefore a bs.length j := List.length_take_of_le (by omega)
    have hp := s.poke_poke a (bs.take (bytesBefore a bs.length j))
      ((bs.drop (bytesBefore a bs.length j)).take (bytesBefore a bs.length (j + 1) - bytesBefore a bs.length j))
    rw [hlen, ← List.take_add, Nat.add_sub_cancel' hle] at hp
    rw [List.range_succ, List.map_append, List.foldl_append, ih (by omega), List.map_singleton, List.foldl_cons, List.foldl_nil,
      State.writeShare, hlo, hhi, (h.poke _ _).writeUnit (ha _ hlt), Nat.add_sub_cancel_left, Nat.add_sub_add_left, hp]

/-- A write without poison to memory without damage stores its bytes, where all of them lie in HBM or none does. -/
theorem State.Clean.write (h : s.Clean) {a : Nat} {bs : List Byte} (ha : ∀ i < bs.length, inHbm (a + i) = inHbm a) :
    s.write a bs = s.poke a bs := by
  unfold State.write
  by_cases hn : bs = []
  · subst hn; rfl
  have hpos : 0 < bs.length := List.length_pos_iff.2 hn
  rw [if_neg (by simpa using hn)]
  simp only [Bool.false_eq_true, if_false]
  cases hr : region a with
  | hbm off =>
    have hin : inHbm a = true := by rw [inHbm, hr]
    have hall : bytesBefore a bs.length ((a + bs.length - 1) / 64 + 1 - a / 64) = bs.length := by unfold bytesBefore; omega
    have hu := h.foldl_writeShare (fun i hi => (ha i hi).trans hin) _ (Nat.le_refl _) hpos
    rw [hall, List.take_length] at hu
    rw [unitsOf, if_neg (by omega)]
    exact hu
  | _ => exact h.writeSram a bs

theorem State.Clean.writeN_word (h : s.Clean) {a : Nat} (ha : a % 8 = 0) (v : Nat) : s.writeN a 8 v = s.pokeN a 8 v :=
  h.write fun i hi => inHbm_word ha (by rwa [bytesOf_length] at hi)

/-- The signal word's increment where no damage is (R51, R53). -/
theorem State.Clean.increment (h : s.Clean) {a : Nat} (ha : a % 8 = 0) (inc : Nat) :
    s.increment a inc = (s.pokeN a 8 ((s.peekN a 8 + inc) % 2 ^ 64), 0) := by
  simp only [State.increment, h.rmwDamage, h.touchRmw, h.writeN_word ha, ne_eq, not_true_eq_false, if_false]

/-- What an ATOMIC leaves in its word (Table 12.16a). -/
def atomicNew (aop old x y : Nat) : Nat :=
  if aop < 2 then (old + x) % 2 ^ 64 else if aop = 2 then x else if old = y then x else old

theorem atomicNew_lt (aop : Nat) {old x : Nat} (y : Nat) (ho : old < 2 ^ 64) (hx : x < 2 ^ 64) : atomicNew aop old x y < 2 ^ 64 := by
  unfold atomicNew
  split
  · exact Nat.mod_lt _ (by decide)
  · split
    · exact hx
    · split
      · exact hx
      · exact ho

/-- An ATOMIC on a word without damage answers the old value and stores the new one (R249). -/
theorem State.Clean.atomicAt (h : s.Clean) {a : Nat} (ha : a % 8 = 0) (aop x y : Nat) :
    s.atomicAt a aop x y = (s.pokeN a 8 (atomicNew aop (s.peekN a 8) x y), s.peekN a 8, 0) := by
  simp only [State.atomicAt, h.rmwDamage, h.touchRmw, h.writeN_word ha, ne_eq, not_true_eq_false, if_false]
  rfl

end Sys2Proof.Machine

/-! SUPPORT. Requests of other nodes at their target and answers at their issuer (R17, R25, R51, R53, R246 to R250, R262). -/
namespace Sys2Proof.Machine

variable {s : State}

/-! ### Ranges in pieces -/

/-- The pieces of a range are as long as the range where they may be as many as its pages. -/
theorem pieces4k_sum : ∀ (k a n : Nat), (n ≠ 0 → n + a % 4096 ≤ 4096 * k) → ((pieces4k k a n).map (·.2)).sum = n
  | 0, _, n, h => by
    by_cases hn : n = 0
    · subst hn; rfl
    · have := h hn; omega
  | k + 1, a, n, h => by
    rw [pieces4k]
    split
    · next hn => subst hn; rfl
    · next hn =>
      have := h hn
      rw [List.map_cons, List.sum_cons, pieces4k_sum k _ _ (by omega)]
      omega

theorem pieces_sum (a n : Nat) : ((pieces a n).map (·.2)).sum = n := pieces4k_sum _ _ _ (by omega)

/-- No piece is longer than what its range holds. -/
theorem mem_pieces4k_le : ∀ {k a n : Nat} {q : Nat × Nat}, q ∈ pieces4k k a n → q.2 ≤ n
  | 0, _, _, _, hq => by cases hq
  | k + 1, a, n, q, hq => by
    rw [pieces4k] at hq
    split at hq
    · cases hq
    · obtain rfl | hq := List.mem_cons.1 hq
      · exact Nat.min_le_left _ _
      · exact Nat.le_trans (mem_pieces4k_le hq) (Nat.sub_le _ _)

/-- The places of a checked range hold as many bytes as the range. -/
theorem State.targetRange_sum {p : Packet} {n code : Nat} {write : Bool} {ls : List (Nat × Nat)} (hn : 0 < n)
    (h : s.targetRange p n write = (code, ls)) : (ls.map (·.2)).sum = n := by
  have hls : ls = (pieces p.addr (max 1 n)).map fun q => ((s.target p q.1 write).2.2, min n q.2) := (congrArg Prod.snd h).symm
  have hmax : max 1 n = n := by omega
  rw [hls, hmax, List.map_map]
  refine (congrArg List.sum (List.map_congr_left fun q hq => ?_)).trans (pieces_sum p.addr n)
  exact Nat.min_eq_right (mem_pieces4k_le hq)

theorem State.length_flatMap_peek (s : State) (ls : List (Nat × Nat)) :
    (ls.flatMap fun l => s.peek l.1 l.2).length = (ls.map (·.2)).sum := by
  simp [List.length_flatMap, State.peek]

/-- A read of sound pieces gives their stored bytes one after the other and leaves the state. -/
theorem State.Clean.readPieces (h : s.Clean) (ls : List (Nat × Nat)) :
    s.readPieces ls = (s, ls.flatMap fun l => s.peek l.1 l.2) := by
  have key : ∀ (ls : List (Nat × Nat)) (bs : List Byte),
      ls.foldl (fun (acc : State × List Byte) l => let (s, cs, _) := acc.1.read l.1 l.2; (s, acc.2 ++ cs)) (s, bs) =
        (s, bs ++ ls.flatMap fun l => s.peek l.1 l.2) := by
    intro ls
    induction ls with
    | nil => simp
    | cons l ls ih =>
      intro bs
      simp only [List.foldl_cons, h.read, ih, List.flatMap_cons, List.append_assoc]
  exact key ls []

/-- Clean units from unit u on are one run (R262). -/
theorem poisonRuns_clean : ∀ (n u : Nat), 0 < n → poisonRuns ((List.range' u n).map fun i => (i, false)) = [(u, n, false)]
  | 1, u, _ => rfl
  | n + 2, u, _ => by
    rw [List.range'_succ, List.map_cons, poisonRuns, poisonRuns_clean (n + 1) (u + 1) (by omega)]
    simp

/-! ### Packets for this device -/

section
variable {p : Packet}

theorem State.forMe_of (hf : s.fclk = true) (hd : p.dest = s.node) : s.forMe p = true := by simp [State.forMe, hf, hd]

theorem Out.when_forMe (h : s.forMe p = true) (u : State) : Out.when (s.forMe p) s u = .next u := by rw [h]; rfl

theorem exec_read (h : s.forMe p = true) : exec (.read p []) s = .next (s.onRead p) := Out.when_forMe h _
theorem exec_write (h : s.forMe p = true) : exec (.write p []) s = .next (s.onWrite p) := Out.when_forMe h _
theorem exec_writeSignal (h : s.forMe p = true) : exec (.writeSignal p) s = .next (s.onWriteSignal p) := Out.when_forMe h _
theorem exec_atomic (h : s.forMe p = true) : exec (.atomic p) s = .next (s.onAtomic p) := Out.when_forMe h _
theorem exec_readData (h : s.forMe p = true) : exec (.readData p) s = .next (s.onReadData p) := Out.when_forMe h _
theorem exec_ack (h : s.forMe p = true) : exec (.ack p) s = .next (s.onAck p) := Out.when_forMe h _
theorem exec_atomicData (h : s.forMe p = true) : exec (.atomicData p) s = .next (s.onAtomicData p) := Out.when_forMe h _
theorem exec_nak (h : s.forMe p = true) : exec (.nak p) s = .next (s.onNak p) := Out.when_forMe h _

end

/-! ### Requests at their target -/

section
variable {p : Packet}

/-- READ of a range that passes its checks: its stored bytes in one answer. -/
theorem State.Clean.onRead (h : s.Clean) {ls : List (Nat × Nat)} (ht : s.targetRange p (64 * p.len) false = (0, ls))
    (hn : 0 < p.len) : s.onRead p = s.answer p opReadData (ls.flatMap fun l => s.peek l.1 l.2) := by
  have hlen : (ls.flatMap fun l => s.peek l.1 l.2).length = 64 * p.len :=
    (s.length_flatMap_peek ls).trans (State.targetRange_sum (by omega) ht)
  have hruns : poisonRuns ((List.range p.len).map fun i => (i, false)) = [(0, p.len, false)] := by
    rw [List.range_eq_range']
    exact poisonRuns_clean _ _ hn
  unfold State.onRead
  rw [ht]
  simp only [h.unitDamage, List.any_nil, h.readPieces, hruns, List.foldl_cons, List.foldl_nil, Nat.mul_zero, List.drop_zero]
  rw [← hlen, List.take_length]

theorem State.onRead_refused {code : Nat} {ls : List (Nat × Nat)} (hc : code ≠ 0)
    (ht : s.targetRange p (64 * p.len) false = (code, ls)) : s.onRead p = s.nakTo p code := by
  unfold State.onRead
  rw [ht]
  split
  · next heq => exact absurd (congrArg Prod.fst heq) hc
  · next heq => cases heq; rfl

theorem State.onWrite_accepted {ls : List (Nat × Nat)} (ht : s.targetRange p p.data.length true = (0, ls)) :
    s.onWrite p = (s.writePieces ls p.data (p.pz && decide (p.len ≠ 0))).answer p opAck [] := by
  unfold State.onWrite
  rw [ht]
  rfl

theorem State.onWrite_refused {code : Nat} {ls : List (Nat × Nat)} (hc : code ≠ 0)
    (ht : s.targetRange p p.data.length true = (code, ls)) : s.onWrite p = s.nakTo p code := by
  unfold State.onWrite
  rw [ht]
  split
  · next heq => exact absurd (congrArg Prod.fst heq) hc
  · next heq => cases heq; rfl

/-- Data that lies in one piece is stored there. -/
theorem State.Clean.writePieces_one (h : s.Clean) {a : Nat} {bs : List Byte} (ha : ∀ i < bs.length, inHbm (a + i) = inHbm a) :
    s.writePieces [(a, bs.length)] bs false = s.poke a bs := by
  rw [State.writePieces, List.foldl_cons, List.foldl_nil, List.take_length]
  exact h.write ha

/-- WRITE_SIGNAL without data increments its signal word and is acknowledged. -/
theorem State.Clean.onWriteSignal (h : s.Clean) {l : Nat} (hlen : p.data.length = 64) (hal : wordAt p.data 0 % 8 = 0)
    (ht : s.target p (wordAt p.data 0) true = (0, false, l)) (hl : l % 8 = 0) :
    s.onWriteSignal p = (s.pokeN l 8 ((s.peekN l 8 + wordAt p.data 1) % 2 ^ 64)).answer p opAck [] := by
  have hdrop : p.data.drop 64 = [] := List.drop_eq_nil_of_le (Nat.le_of_eq hlen)
  have hpieces : s.writePieces [] [] p.pz = s := rfl
  simp only [State.onWriteSignal, hdrop, List.isEmpty_nil, if_true, ht, hal, failIf, firstCode, List.foldl_cons, List.foldl_nil,
    hpieces, h.increment hl, ne_eq, not_true_eq_false, decide_false, Bool.and_false, Bool.false_eq_true, if_false]

/-- ATOMIC on a word that both checks pass does its operation; ADD is acknowledged, the others bring the old value. -/
theorem State.Clean.onAtomic (h : s.Clean) {b : Bool} {a l : Nat} (hal : p.addr % 8 = 0) (hred : inReduction p.addr = false)
    (hr : s.target p p.addr false = (0, b, a)) (hw : s.target p p.addr true = (0, false, l)) (hl : l % 8 = 0) :
    let v := s.pokeN l 8 (atomicNew (wordAt p.data 0) (s.peekN l 8) (wordAt p.data 1) (wordAt p.data 2))
    s.onAtomic p = if wordAt p.data 0 = 0 then v.answer p opAck [] else v.answer p opAtomicData (unitOf [s.peekN l 8]) := by
  simp only [State.onAtomic, hr, hw, hal, hred, failIf, firstCode, List.foldl_cons, List.foldl_nil, h.atomicAt hl, ne_eq,
    not_true_eq_false, decide_false, Bool.or_false, Bool.false_eq_true, if_false, if_true]

end

/-! ### Answers at the issuer -/

section
variable {p : Packet} {c : Nat}

theorem State.coreOf_lt (hc : s.coreOf p = some c) : c < s.cores.length :=
  (List.findIdx?_eq_some_iff_findIdx_eq.1 hc).1

/-- A core put back as it is changes nothing. -/
theorem State.setCore_self (s : State) (c : Nat) : s.setCore c (s.core c) = s := by
  have h : s.cores.set c (s.core c) = s.cores := by
    refine List.ext_getElem? fun i => ?_
    rw [List.getElem?_set]
    split
    · next hi =>
      subst hi
      split
      · next hc => rw [State.core, List.getD_eq_getElem?_getD, List.getElem?_eq_getElem hc, Option.getD_some]
      · next hc => rw [List.getElem?_eq_none (Nat.not_lt.1 hc)]
    · rfl
  rw [State.setCore, h]

/-- With no increment waiting a core has none to make. -/
theorem State.settle_of_no_pending (h : ∀ o ∈ (s.core c).ops, o.op ≠ opPending) : s.settle c = s := by
  have hkeep : ∀ f : RemoteOp → Bool, (s.core c).ops.filter (fun o => !(decide (o.op = opPending) && f o)) = (s.core c).ops :=
    fun f => List.filter_eq_self.2 fun o ho => by simp [h o ho]
  have hdue : ∀ f : RemoteOp → Bool, (s.core c).ops.filter (fun o => decide (o.op = opPending) && f o) = [] :=
    fun f => List.filter_eq_nil_iff.2 fun o ho => by simp [h o ho]
  unfold State.settle
  simp only [hkeep, hdue, List.foldl_nil]
  exact s.setCore_self c

/-- A core without the operation that a packet answers. -/
def Core.without (k : Core) (p : Packet) : Core := { k with ops := k.ops.eraseP (·.answers p) }

/-- The state once an operation of core c is answered: off the core, and its request on its way no more. -/
def State.answered (s : State) (c : Nat) (p : Packet) : State := (s.setCore c ((s.core c).without p)).arrived p

theorem State.core_answered (hc : c < s.cores.length) : (s.answered c p).core c = (s.core c).without p :=
  State.core_setCore_self _ hc

theorem Core.without_ops {k : Core} {q : RemoteOp → Prop} (h : ∀ o ∈ k.ops, q o) : ∀ o ∈ (k.without p).ops, q o :=
  fun o ho => h o (List.mem_of_mem_eraseP ho)

theorem State.settle_answered (hc : c < s.cores.length) (h : ∀ o ∈ (s.core c).ops, o.op ≠ opPending) :
    (s.answered c p).settle c = s.answered c p := by
  refine State.settle_of_no_pending ?_
  rw [State.core_answered hc]
  exact Core.without_ops h

theorem State.onAck_core (hc : s.coreOf p = some c) (h : ∀ o ∈ (s.core c).ops, o.op ≠ opPending) :
    s.onAck p = s.answered c p := by
  have hc' : (s.arrived p).coreOf p = some c := hc
  unfold State.onAck
  simp only [hc']
  exact State.settle_answered (State.coreOf_lt hc) h

/-- READ_DATA that brings all that is left of a read lands it at the move's destination. -/
theorem State.onReadData_whole (hc : s.coreOf p = some c) (h : ∀ o ∈ (s.core c).ops, o.op ≠ opPending) (hs : s.Clean) {b : Nat}
    (hop : (s.coreOp c p).op = opRead) (hdst : (s.coreOp c p).dst = .phys b)
    (hvia : ∀ n w f, (s.coreOp c p).via ≠ .window n w f) (hlen : (s.coreOp c p).len ≤ 64 * p.len)
    (hdata : (s.coreOp c p).len ≤ p.data.length) (hpz : p.pz = false) (hin : ∀ i < (s.coreOp c p).len, inHbm (b + i) = inHbm b) :
    s.onReadData p = (s.answered c p).poke b (p.data.take (s.coreOp c p).len) := by
  have hs1 : (s.answered c p).Clean := ⟨hs.marks, hs.live⟩
  have htake : (p.data.take (s.coreOp c p).len).length = (s.coreOp c p).len := List.length_take_of_le hdata
  have hopen : ∀ bs, s.openData (s.coreOp c p).src (s.coreOp c p).via bs = bs := fun bs => by
    unfold State.openData
    split
    · next n w f he => exact absurd he (hvia n w f)
    · rfl
  have hset : ((s.answered c p).poke b (p.data.take (s.coreOp c p).len)).settle c =
      (s.answered c p).poke b (p.data.take (s.coreOp c p).len) := by
    refine State.settle_of_no_pending ?_
    rw [State.core_poke, State.core_answered (State.coreOf_lt hc)]
    exact Core.without_ops h
  have hput : ∀ r, (s.answered c p).putAt c (s.coreOp c p).src r (.phys b) (p.data.take (s.coreOp c p).len) false =
      ((s.answered c p).poke b (p.data.take (s.coreOp c p).len), 0) := fun r => by
    rw [State.putAt, hs1.write (by rwa [htake])]
  have hdrop : (s.dropOp c p).arrived p = s.answered c p := rfl
  unfold State.onReadData
  simp only [hc, hop, Nat.min_eq_left hlen, hopen, hdst, hpz, hdrop, hput, hset, ne_eq, not_true_eq_false, if_false, if_true]

theorem State.onAtomicData_running (hc : s.coreOf p = some c) {t : TileCtx} (hop : (s.coreOp c p).op = opAtomic)
    (ht : (s.core c).tile = some t) (htask : (t.req, t.task) = (s.coreOp c p).task) (hidx : t.idx = (s.coreOp c p).tile) :
    s.onAtomicData p = (s.answered c p).setCore c (((s.core c).without p).setS (s.coreOp c p).rd (BitVec.ofNat 64 (wordAt p.data 0))) := by
  have hc' : (s.arrived p).coreOf p = some c := hc
  have hop' : ((s.arrived p).coreOp c p).op = opAtomic := hop
  have hcore := State.core_answered (p := p) (State.coreOf_lt hc)
  have hdrop : (s.arrived p).dropOp c p = s.answered c p := rfl
  have htile : ((s.core c).without p).tile = some t := ht
  have hmine : (t.req, t.task) = ((s.arrived p).coreOp c p).task ∧ t.idx = ((s.arrived p).coreOp c p).tile := ⟨htask, hidx⟩
  unfold State.onAtomicData
  simp only [hc', hop', hdrop, hcore, htile, if_pos hmine, State.putS, ne_eq, not_true_eq_false, if_false]
  rfl

/-- A fault of an operation whose tile still runs discards the tile (R310). -/
theorem State.opFault_running {o : RemoteOp} {t : TileCtx} (ht : (s.core c).tile = some t) (htask : (t.req, t.task) = o.task)
    (hidx : t.idx = o.tile) (code : Nat) : s.opFault c o code = (s.discardTile c).faultOp o code := by
  simp only [State.opFault, ht, htask, hidx, decide_true, Bool.and_self, if_true]

theorem State.onNak_running (hc : s.coreOf p = some c) (h : ∀ o ∈ (s.core c).ops, o.op ≠ opPending) {t : TileCtx}
    (ht : (s.core c).tile = some t) (htask : (t.req, t.task) = (s.coreOp c p).task) (hidx : t.idx = (s.coreOp c p).tile) :
    s.onNak p = ((s.answered c p).discardTile c).faultOp (s.coreOp c p) (p.data.getD 0 0).toNat := by
  have hc' : (s.arrived p).coreOf p = some c := hc
  have hcore := State.core_answered (p := p) (State.coreOf_lt hc)
  have hdrop : (s.arrived p).dropOp c p = s.answered c p := rfl
  have hop : (s.arrived p).coreOp c p = s.coreOp c p := rfl
  have htile : ((s.answered c p).core c).tile = some t := hcore ▸ ht
  have hkeep : ∀ f : RemoteOp → Bool, ({ (s.core c).without p with
      ops := ((s.core c).without p).ops.filter fun o => !(decide (o.op = opPending) && f o) } : Core) = (s.core c).without p :=
    fun f => by rw [List.filter_eq_self.2 fun o ho => by simp [Core.without_ops h o ho]]
  have hsame : (s.answered c p).setCore c ((s.core c).without p) = s.answered c p := by
    rw [← hcore, State.setCore_self]
  unfold State.onNak
  simp only [hc', hop, hdrop, hcore, hkeep, hsame, State.opFault_running htile htask hidx]

end

/-- Settles O34. Sound memory makes every reader's check pass and every write a plain store, so each request at its target
and each answer at its issuer comes down to one of the equations above. -/
theorem remoteRequestsAndAnswers : Obligations.RemoteRequestsAndAnswers := by
  unfold Obligations.RemoteRequestsAndAnswers
  constructor
  · intro p s hf hd hs hwf only
    have hme := State.forMe_of hf hd
    refine ⟨fun ls ht hn => ?read, fun code ls hc ht => ?readRefused, fun ls ht => ?write, fun a ht hpz hin => ?writeBytes,
      fun code ls hc ht => ?writeRefused, fun l hlen hal ht hl => ?signal, fun b a l hal hred hr hw hl _ => ?atomic⟩
    case read => rw [exec_read hme, hs.onRead ht hn]
    case readRefused => rw [exec_read hme, State.onRead_refused hc ht]
    case write => rw [exec_write hme, State.onWrite_accepted ht]
    case writeBytes =>
      refine ⟨s.poke a p.data, ?_, fun i hi => State.byte_poke_inside hwf a p.data hi,
        fun x hx => State.byte_poke_outside hwf a p.data hx, rfl⟩
      rw [exec_write hme, State.onWrite_accepted ht, hpz, Bool.false_and, hs.writePieces_one hin]
    case writeRefused => rw [exec_write hme, State.onWrite_refused hc ht]
    case signal =>
      refine ⟨_, ?_, State.peekN_pokeN hwf l (Nat.mod_lt _ (by decide)), fun x hx => State.byte_pokeN_outside hwf l hx, rfl⟩
      rw [exec_writeSignal hme, hs.onWriteSignal hlen hal ht hl]
    case atomic =>
      intro aop old
      have hnew : atomicNew aop old (wordAt p.data 1) (wordAt p.data 2) < 2 ^ 64 := atomicNew_lt _ _ (s.peekN_lt l) (wordAt_lt _ _)
      exact ⟨s.pokeN l 8 (atomicNew aop old (wordAt p.data 1) (wordAt p.data 2)),
        (exec_atomic hme).trans (congrArg _ (hs.onAtomic hal hred hr hw hl)), State.peekN_pokeN hwf l hnew,
        fun x hx => State.byte_pokeN_outside hwf l hx, rfl⟩
  · intro p s c hf hd hc hpend k o k1 s1
    have hme := State.forMe_of hf hd
    refine ⟨?ack, fun b hop hdst hvia hlen hdata hpz hs hwf hin => ?readData, fun t hop ht htask hidx => ?atomicData,
      fun t ht htask hidx => ?nak⟩
    case ack => rw [exec_ack hme, State.onAck_core hc hpend]; rfl
    case readData =>
      have hwf1 : s1.Wf := ⟨hwf.csr, hwf.mem, hwf.marks⟩
      have htake : (p.data.take o.len).length = o.len := List.length_take_of_le hdata
      refine ⟨s1.poke b (p.data.take o.len), ?_, fun i hi => ?_, fun x hx => ?_, rfl⟩
      · rw [exec_readData hme, State.onReadData_whole hc hpend hs hop hdst hvia hlen hdata hpz hin]
        rfl
      · rw [State.byte_poke_inside hwf1 b _ (htake.symm ▸ hi), List.getD_eq_getElem?_getD, List.getElem?_take_of_lt hi,
          List.getD_eq_getElem?_getD]
      · exact State.byte_poke_outside hwf1 b _ (htake.symm ▸ hx)
    case atomicData => rw [exec_atomicData hme, State.onAtomicData_running hc hop ht htask hidx]; rfl
    case nak => rw [exec_nak hme, State.onNak_running hc hpend ht htask hidx]; rfl

end Sys2Proof.Machine

/-! SUPPORT. The ports of the device (R394, R395). -/
namespace Sys2Proof.Machine

/-! ### A retiring port that takes the device with it (R394, R436) -/

/-- A ready device whose queue pair 0 is on port E0, which trains again after a link-down. An FW_UPDATE reads its
bundle over that queue pair, and an orderly restart waits for the update to end (R436); the journal is not usable. -/
def updateOverExport : State :=
  { State.reset with
    csr := (State.reset.wr .hostPortStat_LINK 1 1).csr
    host := { qps := [(0, { state := .rts, port := 1 })], mgmt := some { code := 0x44, stage := 1 }, downs := [(1, [0])] }
    boot := { phase := .ready, clocks := true, resetN := true, restartWaits := true } }

theorem updateOverExport_wf : updateOverExport.Wf := ⟨by decide, rfl, rfl⟩

/-- The port trains again in vain, and retires (R394). -/
theorem updateOverExport_retires :
    exec (.exportRetrainTimeout 1) updateOverExport = .next (updateOverExport.retireExport 1 2) := by
  have hr : updateOverExport.retrains 1 = true := by decide
  show execExportRetrainTimeout 1 updateOverExport = _
  simp [execExportRetrainTimeout, hr, isExport]

/-- Its queue pair's failure ends the update (Table 14.1), the restart that waited for the end begins (R436), and with it every
register is at its reset value (R450). -/
theorem updateOverExport_restarts :
    (updateOverExport.retireExport 1 2).boot.phase = .step 3 ∧
    (updateOverExport.retireExport 1 2).rd .hostPortStat_LINK 1 = 0 := by decide +kernel

/-- Refutes O36: the retirement of one of the ports E0 to E3 does not leave LINK at 3 where queue pair 0 lies on that port and an orderly
restart waits for the FW_UPDATE that reads over it: the device restarts. The statement quantifies over every state in canonical
form, while the model itself puts queue pair 0 on the host port (R455, QP_CREATE refuses number 0); it lacks that premise. -/
theorem not_dieLinksAndEthernetPorts : ¬ Obligations.DieLinksAndEthernetPorts := by
  unfold Obligations.DieLinksAndEthernetPorts
  rintro ⟨-, -, ports⟩
  obtain ⟨onExport, -⟩ := ports 1 updateOverExport updateOverExport_wf (by decide)
  obtain ⟨-, -, timeout, -⟩ := onExport (by decide) (by decide)
  obtain ⟨u, hu, hlink, -⟩ := timeout (by decide) (by decide)
  rw [updateOverExport_retires] at hu
  cases hu
  rw [updateOverExport_restarts.2] at hlink
  exact absurd hlink (by decide)

end Sys2Proof.Machine

/-! SUPPORT. The product of an MMA: its accumulators and what else it changes (R99, R100, R102, R103). -/
namespace Sys2Proof.Machine

/-! ### Checks that pass -/

/-- A run of checks gives no code where it began with none and none of its checks gives one. -/
theorem foldl_code_eq_zero (l : List Nat) (a : Nat) :
    l.foldl (fun a c => if c = 0 then a else if a = 0 then c else min a c) a = 0 ↔ a = 0 ∧ ∀ c ∈ l, c = 0 := by
  induction l generalizing a with
  | nil => simp
  | cons c l ih =>
    rw [List.foldl_cons, ih, List.forall_mem_cons]
    by_cases hc : c = 0
    · simp [hc]
    · by_cases ha : a = 0
      · simp [hc, ha]
      · simp only [hc, ha, if_false, false_and, iff_false, not_and]
        omega

/-- The checks give no code where none of them gives one (R309). -/
theorem firstCode_eq_zero {l : List Nat} : firstCode l = 0 ↔ ∀ c ∈ l, c = 0 := by
  rw [firstCode, foldl_code_eq_zero, eq_self, true_and]

/-- A check gives no code where it does not fail. -/
theorem failIf_eq_zero {b : Bool} {c : Nat} (hc : c ≠ 0) : failIf b c = 0 ↔ b = false := by
  cases b <;> simp [failIf, hc]

section
variable {s : State}

/-- Sound words are read without damage. -/
theorem State.damage_of_sound {a n : Nat} (h : s.sound a n = true) : s.damage a n = 0 := by
  rw [State.damage, if_pos h]

/-- Reading sound words changes nothing. -/
theorem State.touch_of_sound {a n : Nat} (h : s.sound a n = true) : s.touch a n = s := by
  rw [State.sound, Bool.and_eq_true] at h
  rw [State.touch, if_pos h.1]

/-- Operand ranges without a damaged word are read without a fault, and nothing changes (R46). -/
theorem State.readRanges_of_sound {rs : List (Nat × Nat)} (h : ∀ p ∈ rs, s.sound (p.1 % 2 ^ 52) p.2 = true) :
    s.readRanges rs = (s, 0) := by
  have htouch : rs.foldl (fun s r => s.touch (r.1 % 2 ^ 52) r.2) s = s := by
    induction rs with
    | nil => rfl
    | cons p rs ih =>
      rw [List.forall_mem_cons] at h
      rw [List.foldl_cons, State.touch_of_sound h.1, ih h.2]
  have hcode : firstCode (rs.map fun r => s.damage (r.1 % 2 ^ 52) r.2) = 0 := by
    rw [firstCode_eq_zero, List.forall_mem_map]
    exact fun p hp => State.damage_of_sound (h p hp)
  rw [State.readRanges, hcode, htouch]

/-- Expert fields that are heeded leave no note (R9). -/
theorem State.noteIgnored_of_heeds {t : TileCtx} {fields : List Nat} (h : t.Heeds fields) : s.noteIgnored t fields = s := by
  have hall : t.unlocked = true ∨ fields.all (· = 0) = true := by simpa using h
  rw [State.noteIgnored, if_pos hall]

end

/-! ### Accumulators (R95, R100) -/

section
variable {k : Core}

theorem Core.accAt_setAcc_self (h : Smap.wf {} k.acc = true) (x : Nat) (a : Acc) : (k.setAcc x a).accAt x = a :=
  Smap.get_put_self (lo := 0) (m := k.acc) ({} : Acc) x a h

theorem Core.accAt_setAcc_other (h : Smap.wf {} k.acc = true) {x y : Nat} (a : Acc) (hxy : y ≠ x) :
    (k.setAcc x a).accAt y = k.accAt y :=
  Smap.get_put_other (lo := 0) (m := k.acc) ({} : Acc) a hxy h

theorem Core.setAcc_wf (h : Smap.wf {} k.acc = true) (x : Nat) (a : Acc) : Smap.wf {} (k.setAcc x a).acc = true :=
  Smap.put_wf x a h

theorem Core.clearTiles_wf (h : Smap.wf {} k.acc = true) (e j n : Nat) : Smap.wf {} (k.clearTiles e j n).acc = true :=
  Smap.clear_wf _ _ h

/-- The first accumulator of a tile. -/
theorem accKey_first (e j : Nat) : accKey e false j 0 0 = e * 32768 + j * 4096 := by simp [accKey]

/-- Cleared tiles hold empty accumulators, every other tile what it held (R100). -/
theorem Core.accAt_clearTiles (h : Smap.wf {} k.acc = true) (e j n x : Nat) :
    (k.clearTiles e j n).accAt x =
      if accKey e false j 0 0 ≤ x ∧ x < accKey e false (j + n) 0 0 then {} else k.accAt x := by
  have hend : e * 32768 + (j + n) * 4096 = e * 32768 + j * 4096 + n * 4096 := by omega
  rw [accKey_first, accKey_first, hend]
  exact Smap.get_clear _ _ x h

end

/-- The accumulator of element (r, col) of a region that begins with a tile of an engine (R95, R99). -/
def regionKey (e : Nat) (wide : Bool) (tile r col : Nat) : Nat := accKey e wide (tile + r / tileRows wide) (r % tileRows wide) col

/-- Columns of an accumulator tile in a form (Table 4.2). -/
def tileCols (wide : Bool) : Nat := if wide then 256 else 64

/-- Two elements of a region have different accumulators. -/
theorem regionKey_inj {e : Nat} {wide : Bool} {tile r col r' col' : Nat} (hc : col < tileCols wide) (hc' : col' < tileCols wide)
    (h : regionKey e wide tile r col = regionKey e wide tile r' col') : r = r' ∧ col = col' := by
  cases wide <;>
    simp only [tileCols, regionKey, accKey, tileRows, if_true, Bool.false_eq_true, if_false] at hc hc' h <;> omega

/-- The accumulators of a region lie in its tiles. -/
theorem regionKey_mem {e : Nat} {wide : Bool} {tile m r col : Nat} (hr : r < m) (hc : col < tileCols wide) :
    accKey e false tile 0 0 ≤ regionKey e wide tile r col ∧
      regionKey e wide tile r col < accKey e false (tile + ceilDiv m (tileRows wide)) 0 0 := by
  cases wide <;>
    simp only [tileCols, regionKey, accKey, tileRows, ceilDiv, if_true, Bool.false_eq_true, if_false] at hc ⊢ <;> omega

/-! ### A region through its passes (R99) -/

section
variable {key : Nat → Nat → Nat} {f : Nat → Nat → Acc → Acc × List (Nat × Nat × Nat)} {cycle : Nat → Nat → Nat}

/-- One element of a region through its passes, its flags after those of the elements before it. -/
def elemStep (key : Nat → Nat → Nat) (f : Nat → Nat → Acc → Acc × List (Nat × Nat × Nat)) (cycle : Nat → Nat → Nat)
    (x : Core × List FlagEvent) (p : Nat × Nat) : Core × List FlagEvent :=
  (x.1.setAcc (key p.1 p.2) (f p.1 p.2 (x.1.accAt (key p.1 p.2))).1,
   x.2 ++ (f p.1 p.2 (x.1.accAt (key p.1 p.2))).2.map fun q =>
     { flags := q.1, row := p.1, col := p.2, kgroup := q.2.1, time := cycle q.2.2 p.1 })

/-- The elements of a region of m rows and n columns, row by row. -/
def regionElems (m n : Nat) : List (Nat × Nat) := (List.range m).flatMap fun r => (List.range n).map fun col => (r, col)

theorem mem_regionElems {m n : Nat} {p : Nat × Nat} : p ∈ regionElems m n ↔ p.1 < m ∧ p.2 < n := by
  simp only [regionElems, List.mem_flatMap, List.mem_map, List.mem_range]
  constructor
  · rintro ⟨r, hr, col, hc, rfl⟩
    exact ⟨hr, hc⟩
  · exact fun h => ⟨p.1, h.1, p.2, h.2, rfl⟩

/-- No element of a region comes twice. -/
theorem regionElems_pairwise (m n : Nat) : (regionElems m n).Pairwise (· ≠ ·) := by
  rw [regionElems, List.pairwise_flatMap]
  constructor
  · intro r _
    rw [List.pairwise_map]
    exact List.pairwise_lt_range.imp fun hlt he => Nat.ne_of_lt hlt (congrArg Prod.snd he)
  · refine List.pairwise_lt_range.imp fun hlt p hp q hq he => ?_
    obtain ⟨_, _, rfl⟩ := List.mem_map.1 hp
    obtain ⟨_, _, rfl⟩ := List.mem_map.1 hq
    exact Nat.ne_of_lt hlt (congrArg Prod.fst he)

/-- A region's elements are taken one after the other, row by row. -/
theorem accRegion_eq_foldl (k : Core) (m n : Nat) :
    accRegion k m n key f cycle = (regionElems m n).foldl (elemStep key f cycle) (k, []) := by
  rw [regionElems, List.foldl_flatMap]
  simp only [List.foldl_map]
  rfl

theorem elemStep_wf {x : Core × List FlagEvent} (h : Smap.wf {} x.1.acc = true) (p : Nat × Nat) :
    Smap.wf {} (elemStep key f cycle x p).1.acc = true :=
  Core.setAcc_wf h _ _

theorem accAt_elemStep_self {x : Core × List FlagEvent} (h : Smap.wf {} x.1.acc = true) (p : Nat × Nat) :
    (elemStep key f cycle x p).1.accAt (key p.1 p.2) = (f p.1 p.2 (x.1.accAt (key p.1 p.2))).1 :=
  Core.accAt_setAcc_self h _ _

theorem accAt_elemStep_other {x : Core × List FlagEvent} (h : Smap.wf {} x.1.acc = true) {p : Nat × Nat} {y : Nat}
    (hy : y ≠ key p.1 p.2) : (elemStep key f cycle x p).1.accAt y = x.1.accAt y :=
  Core.accAt_setAcc_other h _ hy

/-- Elements change only their own accumulators. -/
theorem accAt_foldl_elemStep_other {y : Nat} (ps : List (Nat × Nat)) {x : Core × List FlagEvent}
    (h : Smap.wf {} x.1.acc = true) (hy : ∀ p ∈ ps, y ≠ key p.1 p.2) :
    (ps.foldl (elemStep key f cycle) x).1.accAt y = x.1.accAt y := by
  induction ps generalizing x with
  | nil => rfl
  | cons p ps ih =>
    rw [List.forall_mem_cons] at hy
    rw [List.foldl_cons, ih (elemStep_wf h p) hy.2, accAt_elemStep_other h hy.1]

/-- Where no two elements share an accumulator, each is taken through its passes from what its accumulator held. -/
theorem accAt_foldl_elemStep_self {p : Nat × Nat} {ps : List (Nat × Nat)} {x : Core × List FlagEvent}
    (h : Smap.wf {} x.1.acc = true) (hnd : ps.Pairwise fun p q => key p.1 p.2 ≠ key q.1 q.2) (hp : p ∈ ps) :
    (ps.foldl (elemStep key f cycle) x).1.accAt (key p.1 p.2) = (f p.1 p.2 (x.1.accAt (key p.1 p.2))).1 := by
  induction ps generalizing x with
  | nil => exact absurd hp List.not_mem_nil
  | cons q ps ih =>
    obtain ⟨hfirst, hrest⟩ := List.pairwise_cons.1 hnd
    rw [List.foldl_cons]
    obtain rfl | hps := List.mem_cons.1 hp
    · rw [accAt_foldl_elemStep_other ps (elemStep_wf h p) hfirst, accAt_elemStep_self h]
    · rw [ih (elemStep_wf h q) hrest hps, accAt_elemStep_other h (hfirst p hps).symm]

/-- Elements change nothing of the core but accumulators. -/
theorem foldl_elemStep_frame (a : List (Nat × Acc)) :
    ∀ (ps : List (Nat × Nat)) (x : Core × List FlagEvent),
      { (ps.foldl (elemStep key f cycle) x).1 with acc := a } = { x.1 with acc := a }
  | [], _ => rfl
  | p :: ps, x => foldl_elemStep_frame a ps (elemStep key f cycle x p)

variable {k : Core} {m n : Nat}

/-- Every accumulator of a region holds what its passes make of the earlier one (R99). -/
theorem accAt_accRegion_self (h : Smap.wf {} k.acc = true)
    (hinj : ∀ r col r' col', col < n → col' < n → key r col = key r' col' → r = r' ∧ col = col') {r col : Nat}
    (hr : r < m) (hc : col < n) :
    (accRegion k m n key f cycle).1.accAt (key r col) = (f r col (k.accAt (key r col))).1 := by
  have hnd : (regionElems m n).Pairwise fun p q => key p.1 p.2 ≠ key q.1 q.2 :=
    (regionElems_pairwise m n).imp_of_mem fun hp hq hne he =>
      have ⟨hrow, hcol⟩ := hinj _ _ _ _ (mem_regionElems.1 hp).2 (mem_regionElems.1 hq).2 he
      hne (Prod.ext hrow hcol)
  rw [accRegion_eq_foldl]
  exact accAt_foldl_elemStep_self (p := (r, col)) h hnd (mem_regionElems.2 ⟨hr, hc⟩)

/-- Every accumulator outside a region is as before. -/
theorem accAt_accRegion_other (h : Smap.wf {} k.acc = true) {x : Nat} (hx : ∀ r < m, ∀ col < n, x ≠ key r col) :
    (accRegion k m n key f cycle).1.accAt x = k.accAt x := by
  rw [accRegion_eq_foldl]
  refine accAt_foldl_elemStep_other _ h fun p hp => ?_
  obtain ⟨hr, hc⟩ := mem_regionElems.1 hp
  exact hx _ hr _ hc

/-- A region changes nothing of the core but accumulators. -/
theorem accRegion_frame (a : List (Nat × Acc)) :
    { (accRegion k m n key f cycle).1 with acc := a } = { k with acc := a } := by
  rw [accRegion_eq_foldl, foldl_elemStep_frame]

end

/-! ### What follows the passes (R88, R89, R98, Table 4.6) -/

section
variable {s : State} {c : Nat}

/-- The exception record of the core is all that latching changes (R89). -/
theorem State.latchExc_eq (s : State) (c : Nat) (t : TileCtx) (e : FlagEvent) :
    s.latchExc c t e = { s with csr := (s.latchExc c t e).csr } := by
  unfold State.latchExc
  split <;> rfl

/-- Raised flags go into the status word and the exception record (R88, R89). -/
theorem State.raise_eq (s : State) (c : Nat) (t : TileCtx) (es : List FlagEvent) :
    s.raise c t es = { s.orStatus c (allFlags es) with csr := (s.raise c t es).csr } := by
  unfold State.raise
  cases firstEvent es with
  | none => rfl
  | some e => exact State.latchExc_eq _ c t e

theorem State.core_setCore_csr (hc : c < s.cores.length) (k : Core) (csr : List (Nat × Nat)) :
    State.core { s.setCore c k with csr := csr } c = k :=
  State.core_setCore_self k hc

/-- Beside its accumulators a matrix instruction changes engines and status of its core and the exception record. -/
theorem State.afterPasses_eq (hc : c < s.cores.length) (k : Core) (e : Nat) (f : Engine → Engine) (t : TileCtx)
    (es : List FlagEvent) (wide cplx pad : Bool) (split : Nat) :
    ∃ engines status csr, (((s.setCore c k).modEngine c e f).raise c t es).engineStatus c wide cplx pad split =
      { s.setCore c { k with engines := engines, status := status } with csr := csr } := by
  have hmod : (s.setCore c k).modEngine c e f = s.setCore c { k with engines := k.engines.modify e f } := by
    rw [State.modEngine, State.core_setCore_self k hc, State.setCore_setCore]
  have hor : ∀ k' b, (s.setCore c k').orStatus c b = s.setCore c { k' with status := k'.status ||| b } := fun k' b => by
    rw [State.orStatus, State.core_setCore_self k' hc, State.setCore_setCore]
  have hset : ∀ k' k'' csr, State.setCore { s.setCore c k' with csr := csr } c k'' = { s.setCore c k'' with csr := csr } :=
    fun k' k'' csr => by simp [State.setCore]
  rw [hmod, State.raise_eq, hor, State.engineStatus, State.core_setCore_csr hc, hset]
  exact ⟨_, _, _, rfl⟩

end

/-! ### MMA (R99, R100, R102, R103) -/

section
variable {s : State} {c : Nat} {w : MmaWord} {t : TileCtx} {j : MmaJob} {k : Core}

/-- A job that passes its checks has no more columns than an accumulator tile (R102). -/
theorem State.cols_le_of_mmaCode {cplx : Bool} (h : s.mmaCode c w cplx j = 0) : j.n ≤ tileCols j.wide := by
  rw [State.mmaCode, firstCode_eq_zero] at h
  have hsize := h _ (List.mem_cons_of_mem _ (List.mem_cons_of_mem _ (List.mem_cons_of_mem _ List.mem_cons_self)))
  rw [failIf_eq_zero (by decide), Bool.or_eq_false_iff, decide_eq_false_iff_not, decide_eq_false_iff_not] at hsize
  exact Nat.not_lt.1 hsize.2

/-- Without GATHER the rows of A stream in their own order (R107). -/
theorem State.gatherRows_plain (hg : w.gather = false) : s.gatherRows w j = (List.range j.m).map some := by
  simp [State.gatherRows, hg]

/-- The core with the accumulators that an instruction without ACC begins from (R100). -/
def Core.beforePasses (k : Core) (w : MmaWord) (j : MmaJob) : Core :=
  if w.acc then k else k.clearTiles w.eng.toNat w.rd.toNat (ceilDiv j.m (tileRows j.wide))

/-- One accumulator of an MMA through its passes (R99, R103). -/
def State.mmaElem (s : State) (w : MmaWord) (j : MmaJob) (r col : Nat) (a : Acc) : Acc × List (Nat × Nat × Nat) :=
  accElem (j.a.fmt.isInt && j.b.fmt.isInt) w.sat j.kLen (if j.wide then 16 else 64)
    (mmaPasses w.split.toNat (s.rowOf j.a j.kLen ((s.gatherRows w j).getD r none)) (s.colOf j.b j.kLen col)) a

/-- The region of an MMA through its passes from the accumulators of a core: the core with the new ones, and the flags
raised. -/
def State.mmaRegion (s : State) (k : Core) (w : MmaWord) (j : MmaJob) : Core × List FlagEvent :=
  accRegion (k.beforePasses w j) j.m j.n (regionKey w.eng.toNat j.wide w.rd.toNat) (s.mmaElem w j)
    (passCycle ((splitPasses w.split.toNat).length * (64 / if j.wide then 16 else 64)) 1 0 j.m)

/-- An MMA without GATHER that passes its checks, its operands sound: the region through its passes, then engine, flags and
status (R99, R88, Table 4.6). -/
theorem mmaRun_eq (hg : w.gather = false) (ht : t.Heeds [w.form.toNat]) (hj : mmaJob (s.core c) t w false = j)
    (hcode : s.mmaCode c w false j = 0)
    (hsound : ∀ p ∈ j.a.ranges 0 j.m 0 j.kLen ++ j.b.ranges 0 j.kLen 0 j.n, s.sound (p.1 % 2 ^ 52) p.2 = true) :
    mmaRun c w false s t =
      (((((s.setCore c (s.mmaRegion (s.core c) w j).1).modEngine c w.eng.toNat fun x =>
        x.runPasses (s.mmaBlocks w false j)).raise c t (s.mmaRegion (s.core c) w j).2).engineStatus c j.wide false
          ((s.gatherRows w j).any (·.isNone)) w.split.toNat), 0) := by
  have hm : j.m = j.a.rows := by subst hj; simp [mmaJob, hg]
  have hread : s.readRanges (j.a.ranges 0 j.m 0 j.kLen ++ j.a2.ranges 0 j.m 0 j.kLen ++ j.b.ranges 0 j.kLen 0 j.n
      ++ j.b2.ranges 0 j.kLen 0 j.n) = (s, 0) := by
    have ha2 : j.a2 = j.a := by subst hj; rfl
    have hb2 : j.b2 = j.b := by subst hj; rfl
    refine State.readRanges_of_sound fun p hp => hsound p ?_
    simp only [ha2, hb2, List.mem_append, or_self, or_assoc] at hp ⊢
    exact hp
  unfold mmaRun
  simp only [State.noteIgnored_of_heeds ht, hj, hcode, hg, hread, ne_eq, not_true_eq_false, if_false, Bool.false_eq_true]
  refine (if_neg ?inRange).trans ?passes
  case inRange => simp [State.gatherRows_plain hg, hm]
  case passes =>
    simp only [Bool.not_false, Bool.or_true, if_true]
    rfl

theorem Core.beforePasses_wf (h : Smap.wf {} k.acc = true) : Smap.wf {} (k.beforePasses w j).acc = true := by
  unfold Core.beforePasses
  split
  · exact h
  · exact Core.clearTiles_wf h _ _ _

/-- Whether an instruction clears an accumulator before its passes: without ACC those of the tiles it writes (R100). -/
abbrev MmaJob.clears (j : MmaJob) (w : MmaWord) (x : Nat) : Prop :=
  w.acc = false ∧ accKey w.eng.toNat false w.rd.toNat 0 0 ≤ x ∧
    x < accKey w.eng.toNat false (w.rd.toNat + ceilDiv j.m (tileRows j.wide)) 0 0

theorem Core.accAt_beforePasses (h : Smap.wf {} k.acc = true) (x : Nat) :
    (k.beforePasses w j).accAt x = if j.clears w x then {} else k.accAt x := by
  unfold Core.beforePasses MmaJob.clears
  cases w.acc
  · rw [if_neg Bool.false_ne_true, Core.accAt_clearTiles h]
    simp only [true_and]
  · simp only [if_true, Bool.true_eq_false, false_and, if_false]

theorem Core.beforePasses_frame (k : Core) (a : List (Nat × Acc)) :
    { k.beforePasses w j with acc := a } = { k with acc := a } := by
  unfold Core.beforePasses
  split <;> rfl

/-- An accumulator of the region holds the earlier one, or a cleared one without ACC, through its passes (R99, R100). -/
theorem State.accAt_mmaRegion_self (h : Smap.wf {} k.acc = true) (hn : j.n ≤ tileCols j.wide) {r col : Nat}
    (hr : r < j.m) (hc : col < j.n) :
    (s.mmaRegion k w j).1.accAt (regionKey w.eng.toNat j.wide w.rd.toNat r col) =
      (s.mmaElem w j r col
        (if w.acc then k.accAt (regionKey w.eng.toNat j.wide w.rd.toNat r col) else {})).1 := by
  have hclears : j.clears w (regionKey w.eng.toNat j.wide w.rd.toNat r col) ↔ w.acc = false :=
    and_iff_left (regionKey_mem hr (Nat.lt_of_lt_of_le hc hn))
  rw [State.mmaRegion, accAt_accRegion_self (Core.beforePasses_wf h)
    (fun _ _ _ _ hx hy => regionKey_inj (Nat.lt_of_lt_of_le hx hn) (Nat.lt_of_lt_of_le hy hn)) hr hc, Core.accAt_beforePasses h]
  by_cases hacc : w.acc = true <;> simp [hclears, hacc]

/-- Outside the region an accumulator is as before or cleared (R100). -/
theorem State.accAt_mmaRegion_other (h : Smap.wf {} k.acc = true) {x : Nat}
    (hx : ∀ r < j.m, ∀ col < j.n, x ≠ regionKey w.eng.toNat j.wide w.rd.toNat r col) :
    (s.mmaRegion k w j).1.accAt x = if j.clears w x then {} else k.accAt x := by
  rw [State.mmaRegion, accAt_accRegion_other (Core.beforePasses_wf h) hx, Core.accAt_beforePasses h]

theorem State.mmaRegion_frame (a : List (Nat × Acc)) : { (s.mmaRegion k w j).1 with acc := a } = { k with acc := a } := by
  rw [State.mmaRegion, accRegion_frame, Core.beforePasses_frame]

/-- Without GATHER element (r, col) multiplies row r of A by column col of B. -/
theorem State.mmaElem_plain (hg : w.gather = false) {r : Nat} (hr : r < j.m) (col : Nat) (a : Acc) :
    s.mmaElem w j r col a = accElem (j.a.fmt.isInt && j.b.fmt.isInt) w.sat j.kLen (if j.wide then 16 else 64)
      (mmaPasses w.split.toNat (s.rowOf j.a j.kLen (some r)) (s.colOf j.b j.kLen col)) a := by
  have hrow : (s.gatherRows w j).getD r none = some r := by
    simp [State.gatherRows_plain hg, List.getD_eq_getElem?_getD, hr]
  rw [State.mmaElem, hrow]

/-- An MMA without GATHER that nothing holds and whose checks pass, its operands sound, takes the core past its word and the
region through its passes; besides, engines and status of the core and the register map may change. -/
theorem exec_mma_eq (hi : s.Issues c 1 t) (hok : mmaOk w false = true) (hg : w.gather = false) (ht : t.Heeds [w.form.toNat])
    (hj : mmaJob (s.core c) t w false = j) (hacc : (s.core c).accHeld = false) (hheld : s.mmaHeld c w j = false)
    (hcode : s.mmaCode c w false j = 0)
    (hsound : ∀ p ∈ j.a.ranges 0 j.m 0 j.kLen ++ j.b.ranges 0 j.kLen 0 j.n, s.sound (p.1 % 2 ^ 52) p.2 = true) :
    ∃ engines status csr, exec (.mma c w) s = .next { s.setCore c
      { (s.mmaRegion ((s.core c).past 1) w j).1 with engines := engines, status := status } with csr := csr } := by
  have hwaits : s.mmaWaits c w false = false := by simp [State.mmaWaits, State.heldFor, hi.tile, hacc, hj, hheld]
  have hissue : exec (.mma c w) s = s.issue c 1 true (mmaRun c w false) := by
    show s.mma c w false = _
    rw [State.mma, hwaits, hok, Bool.and_false, if_neg Bool.false_ne_true]
  have hcore : (s.advance c 1).core c = (s.core c).past 1 := State.core_advance 1 hi.core
  have hrun := mmaRun_eq (s := s.advance c 1) (c := c) (j := j) hg ht (by rw [hcore]; exact hj) hcode hsound
  have hlen : c < (s.advance c 1).cores.length := by rw [State.advance_eq, State.setCore_length]; exact hi.core
  obtain ⟨engines, status, csr, hafter⟩ := State.afterPasses_eq hlen ((s.advance c 1).mmaRegion ((s.core c).past 1) w j).1
    w.eng.toNat (fun x => x.runPasses ((s.advance c 1).mmaBlocks w false j)) t
    ((s.advance c 1).mmaRegion ((s.core c).past 1) w j).2 j.wide false
    (((s.advance c 1).gatherRows w j).any (·.isNone)) w.split.toNat
  refine ⟨engines, status, csr, ?_⟩
  rw [hcore, hafter] at hrun
  rw [hissue, State.issue_eq hi, hrun, State.advance_eq, State.setCore_setCore]
  rfl

end

/-- Settles O16. The region is one run over its elements, which have accumulators of their own in the tiles that the
instruction may clear; what follows the passes touches engines, status and exception record only. -/
theorem matrixProduct : Obligations.MatrixProduct := by
  unfold Obligations.MatrixProduct
  intro c w s t hi hwf hok hg ht k j hacc hheld hcode hsound rows key cleared
  obtain ⟨engines, status, csr, hexec⟩ := exec_mma_eq hi hok hg ht rfl hacc hheld hcode hsound
  have hn : j.n ≤ tileCols j.wide := State.cols_le_of_mmaCode hcode
  have hpast : Smap.wf {} (k.past 1).acc = true := hwf
  refine ⟨_, hexec, ?_⟩
  rw [State.core_setCore_csr hi.core]
  refine ⟨fun r hr col hc => ?inside, fun x hx => ?outside, ?frame, fun i hne => ?others, rfl⟩
  case inside => exact (State.accAt_mmaRegion_self hpast hn hr hc).trans (by rw [State.mmaElem_plain hg hr]; rfl)
  case outside => exact State.accAt_mmaRegion_other hpast hx
  case frame =>
    exact congrArg (fun k' : Core => { k' with status := k.status, engines := k.engines })
      (State.mmaRegion_frame k.acc)
  case others => exact State.core_setCore_other _ hne

end Sys2Proof.Machine

/-! SUPPORT. The events of a matrix engine: its faults and the stationary copy (R105, R106, R114, R115). -/
namespace Sys2Proof.Machine

/-! ### Engine faults (R114, R115) -/

/-- LAST_CAUSE of an engine's own faults (Table 4.7). -/
def lastCause : EngineCause → Nat
  | .residue => 1
  | .stationaryParity => 2
  | .accumulatorParity => 3

section
variable {s : State} {c : Nat} {t : TileCtx}

/-- A pass beyond its limit counts as an engine fault of cause 4 (R114, Table 4.7). -/
theorem exec_passTimeLimit (h : (s.core c).active = true) (e : Nat) :
    exec (.passTimeLimit c e) s = .next (s.engineFault c e 4) := by
  show execPassTimeLimit c e s = _
  rw [execPassTimeLimit, Out.when, if_pos h]

/-- An engine's fault counts with the number of its cause (Table 4.7). -/
theorem exec_engineFault (h : (s.core c).active = true) (e : Nat) (cause : EngineCause) :
    exec (.engineFault c e cause) s = .next (s.engineFault c e (lastCause cause)) := by
  show Out.when (s.core c).active s (s.engineFault c e (lastCause cause)) = _
  rw [Out.when, if_pos h]

/-- The state with cause and engine of a fault recorded (Table 4.7). -/
def State.causeRecorded (s : State) (c e cause : Nat) : State :=
  (s.wr .engStat_LAST_CAUSE c cause).wr .engStat_LAST_ENG c e

/-- The cores that the tiles of t's task have excluded so far, each after its tile (R115). -/
def State.exclusions (s : State) (t : TileCtx) : List (Nat × Nat) :=
  ((s.task t.req t.task).map (·.excludedCores)).getD []

/-- The first engine fault of a tile on a core replays it there (R114). -/
theorem State.engineFault_first (ht : (s.core c).tile = some t) (hr : (s.core c).replays = 0) (e cause : Nat) :
    s.engineFault c e cause =
      ((s.causeRecorded c e cause).event 0x05 c 1 t.ward 0x10 (cause + e * 16 + t.idx * 2 ^ 24)).replayTile c t
        (if (s.core c).phase = .stopping then .stopping else .running) := by
  simp only [State.engineFault, ht, hr, if_true, State.causeRecorded]

/-- A second one faults the task where the tile has excluded a core before (R115). -/
theorem State.engineFault_excludedBefore (ht : (s.core c).tile = some t) (hr : (s.core c).replays ≠ 0) {e cause : Nat}
    (hb : ∃ p ∈ (s.causeRecorded c e cause).exclusions t, p.1 = t.idx) :
    s.engineFault c e cause = (s.causeRecorded c e cause).taskFault c cEngineFault := by
  have hany : ((s.causeRecorded c e cause).exclusions t).any (fun p => decide (p.1 = t.idx)) = true := by simpa using hb
  simp only [State.exclusions, State.causeRecorded] at hany
  simp only [State.engineFault, ht, if_neg hr, hany, if_true, State.causeRecorded]

/-- Else it excludes the core (R115). -/
theorem State.engineFault_excludes (ht : (s.core c).tile = some t) (hr : (s.core c).replays ≠ 0) {e cause : Nat}
    (hb : ∀ p ∈ (s.causeRecorded c e cause).exclusions t, p.1 ≠ t.idx) :
    s.engineFault c e cause =
      (((s.causeRecorded c e cause).event 0x05 c 3 t.ward 0x11 (cause + e * 16 + t.idx * 2 ^ 24)).modTask t.req t.task
        fun x => { x with excludedCores := (t.idx, c) :: x.excludedCores }).excludeCore c := by
  have hany : ((s.causeRecorded c e cause).exclusions t).any (fun p => decide (p.1 = t.idx)) = false := by simpa using hb
  simp only [State.exclusions, State.causeRecorded] at hany
  simp only [State.engineFault, ht, if_neg hr, hany, Bool.false_eq_true, if_false, State.causeRecorded]

end

/-! ### The stationary copy (R105, R106) -/

section
variable {x : Engine} {b : List Cof} {bs : List (List Cof)}

/-- With a block staged and not yet copied, only a row of the register's tag within residency holds the copy back. -/
theorem Engine.mayCopy_of_staged (hs : x.staged = b :: bs) (hc : x.copied = false) :
    x.mayCopy = !decide (1 - x.tag ∈ x.rows) := by
  simp [Engine.mayCopy, hs, hc]

/-- The copy puts the oldest staged block into the register of the other tag. -/
theorem Engine.copy_of_staged (hs : x.staged = b :: bs) (hm : x.mayCopy = true) :
    x.copy = { x with regs := x.regs.set (1 - x.tag) b, staged := bs, copied := true } := by
  simp only [Engine.copy, hs, hm, if_true]

/-- Of the two stationary registers the copy writes the one that the pass in flight does not use (R105). -/
theorem Engine.copy_regs (hs : x.staged = b :: bs) (hm : x.mayCopy = true) (ht : x.tag < 2) (hr : x.regs.length = 2) :
    x.copy.regs.getD (1 - x.tag) [] = b ∧ x.copy.regs.getD x.tag [] = x.regs.getD x.tag [] := by
  have hother : 1 - x.tag ≠ x.tag := by omega
  have hin : 1 - x.tag < x.regs.length := by omega
  rw [Engine.copy_of_staged hs hm]
  constructor
  · simp [List.getD_eq_getElem?_getD, hin]
  · simp [List.getD_eq_getElem?_getD, List.getElem?_set_ne hother]

end

section
variable {s : State} {c e : Nat}

theorem State.core_modEngine (hc : c < s.cores.length) (f : Engine → Engine) :
    (s.modEngine c e f).core c = { s.core c with engines := (s.core c).engines.modify e f } :=
  State.core_setCore_self _ hc

/-- The engine just changed. -/
theorem State.engine_modEngine (hc : c < s.cores.length) (he : e < (s.core c).engines.length) (f : Engine → Engine) :
    ((s.modEngine c e f).core c).engines.getD e {} = f ((s.core c).engines.getD e {}) := by
  rw [State.core_modEngine hc]
  simp [List.getD_eq_getElem?_getD, he]

/-- STATIONARY_COPY copies where the scoreboard lets it and no instruction of the engine waits, else nothing changes. -/
theorem exec_stationaryCopy (hw : s.engineWaits c e = false) :
    exec (.stationaryCopy c e) s =
      .next (if ((s.core c).engines.getD e {}).mayCopy then s.modEngine c e Engine.copy else s) := by
  show execStationaryCopy c e s = _
  rw [execStationaryCopy, hw]
  cases ((s.core c).engines.getD e {}).mayCopy <;> rfl

end

/-- Settles O19. A fault's outcome turns on whether the tile was replayed on the core and whether it has excluded one; the
copy's on whether a row of the register's tag is within residency. -/
theorem engineEvents : Obligations.EngineEvents := by
  unfold Obligations.EngineEvents
  refine ⟨fun c e s t i n hin ht ha => ?fault, fun c e s b bs hc he => ?copy⟩
  case fault =>
    have hi : exec i s = .next (s.engineFault c e n) := by
      simp only [List.mem_cons, List.not_mem_nil, or_false] at hin
      obtain ⟨rfl, rfl⟩ | ⟨rfl, rfl⟩ | ⟨rfl, rfl⟩ | ⟨rfl, rfl⟩ := hin
      · exact exec_engineFault ha e .residue
      · exact exec_engineFault ha e .stationaryParity
      · exact exec_engineFault ha e .accumulatorParity
      · exact exec_passTimeLimit ha e
    refine ⟨fun hr => ?_, fun hr hb => ?_, fun hr hb => ?_⟩
    · exact hi.trans (congrArg _ (State.engineFault_first ht hr e n))
    · exact hi.trans (congrArg _ (State.engineFault_excludedBefore ht hr hb))
    · exact hi.trans (congrArg _ (State.engineFault_excludes ht hr hb))
  case copy =>
    intro x hst htag hregs hcop hw
    refine ⟨fun hr => ?_, fun hr => ?_⟩
    · have hm : x.mayCopy = false := by rw [Engine.mayCopy_of_staged hst hcop, decide_eq_true hr, Bool.not_true]
      rw [exec_stationaryCopy hw, if_neg (ne_true_of_eq_false hm)]
    · have hm : x.mayCopy = true := by rw [Engine.mayCopy_of_staged hst hcop, decide_eq_false hr, Bool.not_false]
      obtain ⟨hnew, hold⟩ := Engine.copy_regs hst hm htag hregs
      refine ⟨s.modEngine c e Engine.copy, by rw [exec_stationaryCopy hw, if_pos hm], ?_⟩
      rw [State.engine_modEngine hc he, State.core_modEngine hc]
      refine ⟨?_, ?_, hnew, hold, ?_, ?_, rfl⟩ <;> rw [Engine.copy_of_staged hst hm]

end Sys2Proof.Machine

/-! SUPPORT. The load of a chain program (R122, R319). -/
namespace Sys2Proof.Machine

section
variable {s : State}

/-- A part of a stored range is stored there itself. -/
theorem State.peek_drop_take (s : State) (a : Nat) {i m n : Nat} (h : i + m ≤ n) :
    ((s.peek a n).drop i).take m = s.peek (a + i) m := by
  refine List.ext_getElem (by simp [State.peek]; omega) fun j _ _ => ?_
  simp [State.peek, Nat.add_assoc]

/-- The 64-bit words of a stored range. -/
theorem State.wordAt_peek (s : State) (a : Nat) {i n : Nat} (h : i < n) :
    wordAt (s.peek a (8 * n)) i = s.peekN (a + 8 * i) 8 := by
  rw [wordAt, State.peek_drop_take s a (by omega), State.peekN]

/-- Sound words are read as they are stored, whatever other words are marked. -/
theorem State.read_sound {a n : Nat} (h : s.sound a n = true) : s.read a n = (s, s.peek a n, 0) := by
  rw [State.read, State.damage_of_sound h, State.touch_of_sound h]

/-- A core written after its move past an instruction keeps nothing of the move. -/
theorem State.setCore_advance (c n : Nat) (k : Core) : (s.advance c n).setCore c k = s.setCore c k :=
  State.setCore_setCore s c _ k

/-- A core that may issue an instruction runs a tile. -/
theorem State.Issues.tile_isSome {c n : Nat} {t : TileCtx} (hi : s.Issues c n t) : (s.core c).tile.isSome = true := by
  have ht := hi.tile
  unfold State.issuing at ht
  split at ht
  · rw [ht, Option.isSome_some]
  · cases ht

end

/-- A CHAIN.LD of n sound words of own memory that nothing holds loads them into its slot where they make a program, and
else faults the task (R122, R319). -/
theorem exec_chainLd {s : State} {c : Nat} {t : TileCtx} {w : ChainLdWord} (hi : s.Issues c 1 t) (hrsv : w.rsv = 0)
    (hext : w.ext = false) (hrd : w.rd.toNat < 4) {a : Nat} (ha : (s.core c).adr w.ra.toNat = a)
    (hpos : 0 < w.n.toNat) (hmax : w.n.toNat ≤ 64) (hal : a % 64 = 0) (hown : s.own c a (8 * w.n.toNat) = true)
    (hfree : s.blocked c a (8 * w.n.toNat) = false) (hsound : s.sound (a % 2 ^ 52) (8 * w.n.toNat) = true)
    {words : List Nat} (hwords : (List.range w.n.toNat).map (fun i => s.peekN (a % 2 ^ 52 + 8 * i) 8) = words) :
    exec (.chainLd c w) s = .next (if chainOk words
      then s.setCore c { (s.core c).past 1 with slots := (s.core c).slots.set w.rd.toNat words }
      else (s.advance c 1).taskFault c cIllegal) := by
  have hcount : w.n.toNat ≠ 0 ∧ ¬ w.n.toNat > 64 := by omega
  have hread : (s.advance c 1).read (a % 2 ^ 52) (8 * w.n.toNat) = (s.advance c 1, s.peek (a % 2 ^ 52) (8 * w.n.toNat), 0) :=
    State.read_sound hsound
  have hown' : (s.advance c 1).own c a (8 * w.n.toNat) = true := hown
  have hlist : (List.range w.n.toNat).map (wordAt (s.peek (a % 2 ^ 52) (8 * w.n.toNat))) = words :=
    hwords ▸ List.map_congr_left fun i hmem => s.wordAt_peek _ (List.mem_range.1 hmem)
  have hcore : (s.advance c 1).core c = (s.core c).past 1 := State.core_advance 1 hi.core
  have htile : ((s.advance c 1).core c).tile.isSome = true := hcore ▸ hi.tile_isSome
  show execChainLd c w s = _
  have hlegal : (decide (w.rsv = 0) && !w.ext && decide (w.rd.toNat < 4)) = true := by simp [hrsv, hext, hrd]
  simp only [execChainLd, ha, hfree, hlegal, State.issueUnless_free, State.issue_eq hi, hcount, hal, hown', hread, hlist]
  cases chainOk words
  · simp [failIf, firstCode, cIllegal, State.tileFault_running t _ htile]
  · simp only [failIf, firstCode, hcore, State.setCore_advance]
    rfl

/-- Settles O20. Sound words are read as they are stored, so the program that they make decides alone between the load and the
fault. -/
theorem chainLoads : Obligations.ChainLoads := by
  unfold Obligations.ChainLoads
  intro c w s t hi hrsv hext hrd k a n words hpos hmax hal hown hfree hsound
  have hexec := exec_chainLd hi hrsv hext hrd rfl hpos hmax hal hown hfree hsound (words := words) rfl
  refine ⟨fun hok => ?_, fun hbad => ?_⟩
  · rw [hexec, if_pos hok]
  · rw [hexec, if_neg (ne_true_of_eq_false hbad)]

end Sys2Proof.Machine

/-! SUPPORT. The fused products: what MMF.EXP and MMF.ROW leave in the row-state array and in the core (R140 to R142, R315). -/
namespace Sys2Proof.Machine

/-! ### Own memory and its records -/

/-- A core's memory lies past HBM (Table 1.7). -/
theorem coreBase_le_of_region {a i off : Nat} (h : region a = .core i off) : coreBase ≤ a := by
  refine Nat.not_lt.1 fun hlt => ?_
  unfold region at h
  by_cases hward : a < hbmBase
  · rw [if_pos hward] at h
    cases h
  by_cases hhbm : a < hbmBase + 0x8000000000
  · rw [if_neg hward, if_pos hhbm] at h
    cases h
  · rw [if_neg hward, if_neg hhbm, if_pos hlt] at h
    cases h

section
variable {s : State} {c : Nat}

/-- No byte of a core's own memory lies in HBM. -/
theorem State.inHbm_own {a n i : Nat} (h : s.own c a n = true) (hi : i < n) : inHbm (a % 2 ^ 52 + i) = false := by
  unfold State.own State.ownOff at h
  split at h
  · next off hoff =>
    split at hoff
    · split at hoff
      · next hreg =>
        have hbase := coreBase_le_of_region hreg
        rw [← Bool.not_eq_true, inHbm_iff]
        unfold coreBase at hbase
        unfold hbmBase
        omega
      · cases hoff
    · cases hoff
  · have := of_decide_eq_true h
    omega

theorem State.Clean.setCore (h : s.Clean) (c : Nat) (k : Core) : (s.setCore c k).Clean := ⟨h.marks, h.live⟩

/-- Bytes written to own memory without damage are stored as they are. -/
theorem State.Clean.write_own (h : s.Clean) {a n : Nat} (hown : s.own c a n = true) {bs : List Byte} (hlen : bs.length ≤ n) :
    s.write (a % 2 ^ 52) bs = s.poke (a % 2 ^ 52) bs := by
  refine h.write fun i hi => ?_
  have hfirst := State.inHbm_own hown (show 0 < n by omega)
  rw [Nat.add_zero] at hfirst
  rw [hfirst, State.inHbm_own hown (show i < n by omega)]

end

/-- Record r of records of equal length. -/
theorem drop_take_flatMap {α β : Type} {f : α → List β} {n : Nat} (hf : ∀ x, (f x).length = n) :
    ∀ {l : List α} {r : Nat} (hr : r < l.length), ((l.flatMap f).drop (n * r)).take n = f l[r]
  | x :: l, 0, _ => by simp [← hf x]
  | x :: l, r + 1, hr => by
    have hdrop : n * (r + 1) = (f x).length + n * r := by rw [hf x, Nat.mul_succ, Nat.add_comm]
    rw [List.flatMap_cons, hdrop, List.drop_length_add_append, drop_take_flatMap hf (Nat.lt_of_succ_lt_succ hr),
      List.getElem_cons_succ]

theorem length_flatMap_const {α β : Type} {f : α → List β} {n : Nat} (hf : ∀ x, (f x).length = n) (l : List α) :
    (l.flatMap f).length = n * l.length := by
  induction l with
  | nil => rfl
  | cons x l ih => rw [List.flatMap_cons, List.length_append, hf x, ih, List.length_cons, Nat.mul_succ, Nat.add_comm]

/-- A row's state has 32 bytes (R140). -/
theorem Row.encode_length (r : Row) (lse : Nat) : (r.encode lse).length = 32 := by simp [Row.encode]

/-- Records stored one after the other are each in its place. -/
theorem State.peek_poke_records {s : State} (h : s.Wf) (a : Nat) {α : Type} {f : α → List Byte} {n : Nat}
    (hf : ∀ x, (f x).length = n) {l : List α} {r : Nat} (hr : r < l.length) :
    (s.poke a (l.flatMap f)).peek (a + n * r) n = f l[r] := by
  have hin : n * r + n ≤ (l.flatMap f).length := by
    rw [length_flatMap_const hf, ← Nat.mul_succ]
    exact Nat.mul_le_mul_left n hr
  rw [← State.peek_drop_take _ a hin, State.peek_poke h, drop_take_flatMap hf hr]

/-! ### What follows a product (R88, R89, Table 4.6) -/

/-- Memory is as before, and so is core c but for its status and engines. -/
structure State.KeepsMemoryAndCore (s u : State) (c : Nat) : Prop where
  mem : u.mem = s.mem
  core : ∀ status engines, { u.core c with status := status, engines := engines } =
    { s.core c with status := status, engines := engines }

section
variable {s u v : State} {c : Nat}

theorem State.KeepsMemoryAndCore.trans (h : s.KeepsMemoryAndCore u c) (h' : u.KeepsMemoryAndCore v c) :
    s.KeepsMemoryAndCore v c :=
  ⟨h'.mem.trans h.mem, fun x y => (h'.core x y).trans (h.core x y)⟩

theorem State.KeepsMemoryAndCore.byte (h : s.KeepsMemoryAndCore u c) (x : Nat) : u.byte x = s.byte x := by
  rw [State.byte, h.mem, State.byte]

theorem State.KeepsMemoryAndCore.peek (h : s.KeepsMemoryAndCore u c) (a n : Nat) : u.peek a n = s.peek a n :=
  List.map_congr_left fun i _ => h.byte (a + i)

/-- A state of the same memory and cores keeps both. -/
theorem State.KeepsMemoryAndCore.of_eq (hmem : u.mem = s.mem) (hcores : u.cores = s.cores) : s.KeepsMemoryAndCore u c :=
  ⟨hmem, fun _ _ => by rw [State.core, State.core, hcores]⟩

/-- A core written with another status and other engines. -/
theorem State.keeps_setCore (s : State) (c status : Nat) (engines : List Engine) :
    s.KeepsMemoryAndCore (s.setCore c { s.core c with status := status, engines := engines }) c := by
  refine ⟨rfl, fun x y => ?_⟩
  by_cases hc : c < s.cores.length
  · rw [State.core_setCore_self _ hc]
  · have hset : s.cores.set c { s.core c with status := status, engines := engines } = s.cores :=
      List.set_eq_of_length_le (Nat.not_lt.1 hc)
    rw [State.setCore, hset]

theorem State.keeps_orStatus (s : State) (c bits : Nat) : s.KeepsMemoryAndCore (s.orStatus c bits) c :=
  s.keeps_setCore c _ _

theorem State.keeps_engineStatus (s : State) (c : Nat) (wide cplx pad : Bool) (split : Nat) :
    s.KeepsMemoryAndCore (s.engineStatus c wide cplx pad split) c :=
  s.keeps_setCore c _ _

theorem State.keeps_modEngine (s : State) (c e : Nat) (f : Engine → Engine) : s.KeepsMemoryAndCore (s.modEngine c e f) c :=
  s.keeps_setCore c _ _

theorem State.keeps_raise (s : State) (c : Nat) (t : TileCtx) (es : List FlagEvent) :
    s.KeepsMemoryAndCore (s.raise c t es) c := by
  rw [State.raise_eq]
  exact (s.keeps_orStatus c _).trans (.of_eq rfl rfl)

/-- Flags, engine and status after a fused product, and the status bit of a row that lost partials (Table 6.4). -/
theorem State.keeps_afterProduct (s : State) (c : Nat) (t : TileCtx) (es es' : List FlagEvent) (wide : Bool) (e : Nat)
    (f : Engine → Engine) (lost : Bool) :
    let v := (((s.free.1.raise c t es).raise c t es').engineStatus c wide false false 0).modEngine c e f
    s.KeepsMemoryAndCore (if lost then v.orStatus c 0x10000 else v) c := by
  intro v
  have hfree : s.KeepsMemoryAndCore s.free.1 c := .of_eq rfl rfl
  have hv : s.KeepsMemoryAndCore v c :=
    (((hfree.trans (State.keeps_raise _ c t es)).trans (State.keeps_raise _ c t es')).trans
      (State.keeps_engineStatus _ c wide false false 0)).trans (State.keeps_modEngine _ c e f)
  cases lost
  · exact hv
  · exact hv.trans (v.keeps_orStatus c _)

end

/-! ### Rows of a block (R140 to R142) -/

section
variable {s : State} {c : Nat} {w : MmfWord} {t : TileCtx} {j : MmfJob} {k : Core} {isRow : Bool}

/-- The core with the accumulators that a block begins from: with INIT those of its tiles are cleared (R140). -/
def Core.beforeBlock (k : Core) (w : MmfWord) (j : MmfJob) : Core :=
  if w.init then k.clearTiles w.eng.toNat w.rd.toNat (ceilDiv j.a.rows (tileRows j.wide)) else k

/-- The values of D in COF, row by row. -/
def State.mmfValues (s : State) (j : MmfJob) : List (List Num) :=
  (List.range j.d.rows).map fun i => (List.range j.d.cols).map fun x => (s.elemNum j.d i x).toCofNum

/-- The state of a row before the block: that of the row-state array, or a fresh one with INIT, and the row's accumulators
(R140). -/
def State.mmfStart (s : State) (k : Core) (w : MmfWord) (j : MmfJob) (r : Nat) : Row :=
  { (if w.init then {} else Row.decode (s.peek (j.area % 2 ^ 52 + 32 * r) 32) : Row) with
    o := (List.range j.d.cols).map fun x => (k.beforeBlock w j).accAt (regionKey w.eng.toNat j.wide w.rd.toNat r x) }

/-- What one row of the block gives (R141, R142). -/
def State.mmfRowAt (s : State) (k : Core) (w : MmfWord) (isRow : Bool) (j : MmfJob) (r : Nat) : MmfRow :=
  let xs := ((s.mmfProduct j).getD r []).map (·.1)
  let depth := if j.wide then 16 else 64
  if isRow then mmfRowRow { s.mmfStart k w j r with nan := false } xs (if w.kind then 3 else 1) (s.mmfValues j) depth
  else mmfExpRow (s.mmfStart k w j r) xs (Num.decode .fp32 (((k.beforeBlock w j).sreg w.rc.toNat).toNat % 2 ^ 32))
    (s.mmfValues j) depth

/-- What the rows of the block give. -/
def State.mmfRows (s : State) (k : Core) (w : MmfWord) (isRow : Bool) (j : MmfJob) : List MmfRow :=
  (List.range j.a.rows).map (s.mmfRowAt k w isRow j)

theorem State.mmfRows_length : (s.mmfRows k w isRow j).length = j.a.rows := by simp [State.mmfRows]

/-- The core with the rows' outputs in their accumulators. -/
def Core.withOutputs (k : Core) (key : Nat → Nat → Nat) (rows : List MmfRow) : Core :=
  (rows.mapIdx fun r o => (r, o)).foldl (fun k p =>
    (p.2.row.o.mapIdx fun x a => (x, a)).foldl (fun k q => k.setAcc (key p.1 q.1) { q.2 with int := false }) k) k

/-- Steps that each change only accumulators change only accumulators. -/
theorem Core.foldl_frame {α : Type} {f : Core → α → Core} {acc : List (Nat × Acc)}
    (hf : ∀ k x, { f k x with acc := acc } = { k with acc := acc }) (l : List α) (k : Core) :
    { l.foldl f k with acc := acc } = { k with acc := acc } := by
  induction l generalizing k with
  | nil => rfl
  | cons x l ih => rw [List.foldl_cons, ih, hf]

theorem Core.withOutputs_frame (k : Core) (key : Nat → Nat → Nat) (rows : List MmfRow) (acc : List (Nat × Acc)) :
    { k.withOutputs key rows with acc := acc } = { k with acc := acc } := by
  refine Core.foldl_frame (fun k p => ?_) _ k
  refine Core.foldl_frame (fun k q => ?_) _ k
  rfl

theorem Core.beforeBlock_frame (k : Core) (acc : List (Nat × Acc)) :
    { k.beforeBlock w j with acc := acc } = { k with acc := acc } := by
  unfold Core.beforeBlock
  split <;> rfl

theorem Core.sreg_beforeBlock (k : Core) (n : Nat) : (k.beforeBlock w j).sreg n = k.sreg n := by
  unfold Core.beforeBlock
  split <;> rfl

/-- A core's accumulators are cleared alike before and after its program counter moves. -/
theorem Core.beforeBlock_past (k : Core) (n : Nat) : (k.past n).beforeBlock w j = (k.beforeBlock w j).past n := by
  unfold Core.beforeBlock
  split <;> rfl

/-- A job that passes its checks has its row-state array in own memory (R315). -/
theorem State.own_of_mmfCode (h : s.mmfCode c w j = 0) : s.own c j.area (32 * j.a.rows) = true := by
  rw [State.mmfCode, firstCode_eq_zero] at h
  have hlocal := h (failIf (!(j.a.own s c && j.b.own s c && j.d.own s c && s.own c j.area (32 * j.a.rows))) cNotLocal) (by simp)
  rw [failIf_eq_zero (by decide), Bool.not_eq_false', Bool.and_eq_true] at hlocal
  exact hlocal.2

/-- The state of a block that has its outputs in the accumulators and its rows' states in the row-state array. -/
def State.afterBlock (s : State) (c : Nat) (w : MmfWord) (isRow : Bool) (j : MmfJob) : State :=
  let k := s.core c
  let rows := s.mmfRows k w isRow j
  (s.setCore c ((k.beforeBlock w j).withOutputs (regionKey w.eng.toNat j.wide w.rd.toNat) rows)).poke (j.area % 2 ^ 52)
    (rows.flatMap fun o => o.row.encode 0)

/-- An MMF without the reference buffer that passes its checks, on memory without damage: accumulators and row states, then
flags, engine and status. -/
theorem mmfRun_keeps (hs : s.Clean) (href : w.ref = false) (ht : t.Heeds [w.form.toNat]) (hj : mmfJob (s.core c) t w = j)
    (hcode : s.mmfCode c w j = 0) :
    ∃ u, mmfRun c w isRow s t = (u, 0) ∧ (s.afterBlock c w isRow j).KeepsMemoryAndCore u c := by
  have hread : ∀ rs, s.readRanges rs = (s, 0) := fun rs => State.readRanges_of_sound fun p _ => hs.sound _ _
  have hwrite : (s.setCore c (((s.core c).beforeBlock w j).withOutputs (regionKey w.eng.toNat j.wide w.rd.toNat)
      (s.mmfRows (s.core c) w isRow j))).write (j.area % 2 ^ 52)
        ((s.mmfRows (s.core c) w isRow j).flatMap fun o => o.row.encode 0) = s.afterBlock c w isRow j :=
    (hs.setCore c _).write_own (c := c) (a := j.area) (n := 32 * j.a.rows) (State.own_of_mmfCode hcode)
      (Nat.le_of_eq (by rw [length_flatMap_const fun o : MmfRow => o.row.encode_length 0, State.mmfRows_length]))
  unfold mmfRun
  simp only [State.noteIgnored_of_heeds ht, hj, hcode, href, hread, ne_eq, not_true_eq_false, if_false, Bool.false_eq_true]
  refine ⟨_, rfl, ?_⟩
  rw [← hwrite]
  exact State.keeps_afterProduct _ c t _ _ j.wide _ _ _

/-- The row-state array after a block holds each row's new state (R140). -/
theorem State.peek_afterBlock (hwf : s.Wf) {r : Nat} (hr : r < j.a.rows) :
    (s.afterBlock c w isRow j).peek (j.area % 2 ^ 52 + 32 * r) 32 = (s.mmfRowAt (s.core c) w isRow j r).row.encode 0 := by
  have hlen : r < (s.mmfRows (s.core c) w isRow j).length := by rwa [State.mmfRows_length]
  have hrow : (s.mmfRows (s.core c) w isRow j)[r] = s.mmfRowAt (s.core c) w isRow j r := by simp [State.mmfRows]
  rw [State.afterBlock, State.peek_poke_records (hwf.setCore c _) _ (fun o : MmfRow => o.row.encode_length 0) hlen, hrow]

/-- Outside the row-state array a block changes no byte (R140). -/
theorem State.byte_afterBlock (hwf : s.Wf) {x : Nat}
    (hx : x < j.area % 2 ^ 52 ∨ j.area % 2 ^ 52 + 32 * j.a.rows ≤ x) : (s.afterBlock c w isRow j).byte x = s.byte x := by
  refine State.byte_poke_outside (hwf.setCore c _) _ _ ?_
  rwa [length_flatMap_const fun o : MmfRow => o.row.encode_length 0, State.mmfRows_length]

/-- A block changes nothing of its core but accumulators. -/
theorem State.core_afterBlock (hc : c < s.cores.length) (acc : List (Nat × Acc)) :
    { (s.afterBlock c w isRow j).core c with acc := acc } = { s.core c with acc := acc } := by
  rw [State.afterBlock, State.core_poke, State.core_setCore_self _ hc, Core.withOutputs_frame, Core.beforeBlock_frame]

/-- An MMF without the reference buffer that nothing holds and whose checks pass, on memory without damage, leaves memory and
core as after its block, but for status and engines. -/
theorem exec_mmf (hi : s.Issues c 2 t) (hs : s.Clean) (hok : mmfOk w isRow = true) (href : w.ref = false)
    (ht : t.Heeds [w.form.toNat]) (hj : mmfJob (s.core c) t w = j) (hacc : (s.core c).accHeld = false)
    (hheld : (j.reads w.init).any (fun r => s.blocked c r.1 r.2) = false) (hcode : s.mmfCode c w j = 0) :
    ∃ u, exec (if isRow then .mmfRow c w else .mmfExp c w) s = .next u ∧
      ((s.advance c 2).afterBlock c w isRow j).KeepsMemoryAndCore u c := by
  have hfree : s.heldFor c (fun t => (s.core c).accHeld ||
      ((mmfJob (s.core c) t w).reads w.init).any fun r => s.blocked c r.1 r.2) = false := by
    simp only [State.heldFor, hi.tile, hacc, hj, hheld, Bool.or_false]
  have hissue : exec (if isRow then .mmfRow c w else .mmfExp c w) s = s.issue c 2 true (mmfRun c w isRow) := by
    have hmmf : exec (if isRow then .mmfRow c w else .mmfExp c w) s = s.mmf c w isRow := by cases isRow <;> rfl
    rw [hmmf, State.mmf, hfree, State.issueUnless_free, hok]
  have hcore : (s.advance c 2).core c = (s.core c).past 2 := State.core_advance 2 hi.core
  obtain ⟨u, hrun, hkeeps⟩ := mmfRun_keeps (s := s.advance c 2) (isRow := isRow) (hs.setCore c _) href ht
    (by rw [hcore]; exact hj) hcode
  refine ⟨u, ?_, hkeeps⟩
  rw [hissue, State.issue_eq hi, hrun]
  rfl

end

/-- Settles O18. The rows' states are records of 32 bytes in a row-state array that lies in own memory, written in one run
after the rows' outputs; what follows touches engines, status, register map and free values only. -/
theorem fusedProducts : Obligations.FusedProducts := by
  unfold Obligations.FusedProducts
  intro row c w s t hi hwf hok href ht k j hacc hheld hcode hs vs depth rows k0 result
  obtain ⟨u, hexec, hkeeps⟩ := exec_mmf hi hs hok href ht rfl hacc hheld hcode
  have hwf2 : (s.advance c 2).Wf := hwf.setCore c _
  have hcore : (s.advance c 2).core c = k.past 2 := State.core_advance 2 hi.core
  refine ⟨u, hexec, fun r hr => ?inside, fun x hx => ?outside, ?frame⟩
  case inside =>
    have hrow : (s.advance c 2).mmfRowAt (k.past 2) w row j r = result r := by
      simp only [State.mmfRowAt, State.mmfStart, Core.beforeBlock_past, Core.sreg_past, Core.sreg_beforeBlock]
      rfl
    rw [hkeeps.peek, State.peek_afterBlock hwf2 hr, hcore, hrow]
  case outside => rw [hkeeps.byte, State.byte_afterBlock hwf2 hx]; rfl
  case frame =>
    have hlen : c < (s.advance c 2).cores.length := by rw [State.advance_eq, State.setCore_length]; exact hi.core
    have hblock := State.core_afterBlock (w := w) (isRow := row) (j := j) hlen k.acc
    have hafter := hkeeps.core k.status k.engines
    rw [hcore] at hblock
    exact (congrArg (fun k' : Core => { k' with acc := k.acc }) hafter).trans
      (congrArg (fun k' : Core => { k' with status := k.status, engines := k.engines }) hblock)

end Sys2Proof.Machine
